-- ==== Sys2Proof/Word.lean ====
section
/-!
DEFINITION. The widths of the GT codec (R6, R8, R81) and the names of its buffer spaces (R60).
-/

namespace Sys2Proof

/-- A byte, the unit of every access (R62). -/
abbrev Byte := BitVec 8

/-- A CRC value, `CRC_WIDTH` = 16 bits (R6). -/
abbrev Crc := BitVec 16

/-- An operation word, `OPWORD_WIDTH` = 12 bits (R81). -/
abbrev OpWord := BitVec 12

/-- The three indexed byte spaces of R60. The RX and TX streams are lists, not indexed spaces. -/
inductive Space where
  | pbuf
  | rbuf
  | tbuf
  deriving DecidableEq, Repr

end Sys2Proof
end

