-- ==== Sys2Proof/Syntax.lean ====
section
/-!
DEFINITION. The operations (R82, R181): one constructor per row of spec/opcode_table.json, and the
lines of the assembler syntax with its pseudo-instructions (R88, R89).
-/

namespace Sys2Proof

/-- The operations. `NOP`, `CRC_INIT` and `TX_BUILD` take no operand: their data field is ignored
(R83). The reserved words carry only their op field (`Reserved(op)`, R86). -/
inductive Instr where
  /-- `NOP` (R180). -/
  | nop
  /-- `RX_BYTE b` (R140). -/
  | rxByte (b : Byte)
  /-- `CRC_INIT` (R104). -/
  | crcInit
  /-- `CRC_BYTE b` (R105). -/
  | crcByte (b : Byte)
  /-- `TX_PUSH b` (R122). -/
  | txPush (b : Byte)
  /-- `TX_BUILD` (R123). -/
  | txBuild
  /-- Reserved, op 0x6 (R181). -/
  | reserved6
  /-- Reserved, op 0x7 (R181). -/
  | reserved7
  /-- Reserved, op 0x8 (R181). -/
  | reserved8
  /-- Reserved, op 0x9 (R181). -/
  | reserved9
  /-- Reserved, op 0xA (R181). -/
  | reservedA
  /-- Reserved, op 0xB (R181). -/
  | reservedB
  /-- Reserved, op 0xC (R181). -/
  | reservedC
  /-- Reserved, op 0xD (R181). -/
  | reservedD
  /-- Reserved, op 0xE (R181). -/
  | reservedE
  /-- Reserved, op 0xF (R181). -/
  | reservedF
  deriving DecidableEq, Repr

/-- One assembler line (R88, R89). Operands are numbers as written: a value above 255 is an assembly
error and not a truncation, so the range is a check (WellFormed), not a type. -/
inductive AsmOp where
  | nop
  | rxByte (v : Nat)
  | crcInit
  | crcByte (v : Nat)
  | txPush (v : Nat)
  | txBuild
  /-- `RX_SEQ b0, ..., bk` -/
  | rxSeq (vs : List Nat)
  /-- `RX_FRAME p0, ..., pn-1` -/
  | rxFrame (vs : List Nat)
  /-- `CRC_SEQ b0, ..., bk` -/
  | crcSeq (vs : List Nat)
  /-- `TX_FRAME p0, ..., pn-1` -/
  | txFrame (vs : List Nat)
  deriving DecidableEq, Repr

end Sys2Proof
end

