-- ==== Sys2Proof/Decode.lean ====
section
/-!
DEFINITION. The operation word `{op[3:0], data[7:0]}` (R81), its total decoder (R82, R86), and the
encoder, which writes the canonical word (R83).
-/

namespace Sys2Proof

/-- `op = word[11:8]` (R81). -/
def opField (w : OpWord) : BitVec 4 := w.extractLsb' 8 4

/-- `data = word[7:0]` (R81). -/
def dataField (w : OpWord) : Byte := w.extractLsb' 0 8

/-- The word with the given fields (R81). -/
def opWord (op : BitVec 4) (data : Byte) : OpWord := op ++ data

/-- The opcode map of R82. Decoding is total (R86): each of the 4096 words gives one operation or one
reserved operation. -/
def decode (w : OpWord) : Instr :=
  match (opField w).toNat with
  | 0 => .nop
  | 1 => .rxByte (dataField w)
  | 2 => .crcInit
  | 3 => .crcByte (dataField w)
  | 4 => .txPush (dataField w)
  | 5 => .txBuild
  | 6 => .reserved6
  | 7 => .reserved7
  | 8 => .reserved8
  | 9 => .reserved9
  | 10 => .reservedA
  | 11 => .reservedB
  | 12 => .reservedC
  | 13 => .reservedD
  | 14 => .reservedE
  | _ => .reservedF

/-- Why bits given to the decoder are no operation word. -/
inductive DecodeError where
  /-- The bits above bit 11 are not all zero: every operation is one 12-bit word (R87). Safe: such
  bits are never an event of the block. -/
  | widerThanTwelveBits
  deriving DecidableEq, Repr

/-- The decoder on any bits at all, as a number: refused by name unless it is a 12-bit word (R87). -/
def decodeBits (w : Nat) : Except DecodeError Instr :=
  if w < 4096 then .ok (decode (BitVec.ofNat 12 w)) else .error .widerThanTwelveBits

/-- The op field of R82's row. -/
def opcodeOf : Instr → BitVec 4
  | .nop => 0x0#4
  | .rxByte _ => 0x1#4
  | .crcInit => 0x2#4
  | .crcByte _ => 0x3#4
  | .txPush _ => 0x4#4
  | .txBuild => 0x5#4
  | .reserved6 => 0x6#4
  | .reserved7 => 0x7#4
  | .reserved8 => 0x8#4
  | .reserved9 => 0x9#4
  | .reservedA => 0xA#4
  | .reservedB => 0xB#4
  | .reservedC => 0xC#4
  | .reservedD => 0xD#4
  | .reservedE => 0xE#4
  | .reservedF => 0xF#4

/-- The data field: the byte operand, and 0x00 where the field is ignored (R83, canonical). -/
def operandOf : Instr → Byte
  | .rxByte b | .crcByte b | .txPush b => b
  | .nop | .crcInit | .txBuild => 0x00#8
  | .reserved6 | .reserved7 | .reserved8 | .reserved9 | .reservedA
  | .reservedB | .reservedC | .reservedD | .reservedE | .reservedF => 0x00#8

/-- The canonical word of an instruction (R82, R83). -/
def encode (i : Instr) : OpWord := opWord (opcodeOf i) (operandOf i)

/-- The host's reading of a table row's bits (log 19): bits of `w` above `nbits` are not the row's,
and the word is 12 bits wide (R81). -/
def decodeTableWord (nbits w : Nat) : Option Instr :=
  match decodeBits (w % 2 ^ nbits) with
  | .ok i => some i
  | .error _ => none

end Sys2Proof
end

