-- ==== Sys2Proof/Config.lean ====
section
/-!
DEFINITION. The fixed constants of R6 (none is configurable, R41) and the free values: what the spec
leaves unspecified is an uninterpreted constant here. UNVERIFIED (log 21): R7 says the literals were
not audited against the original code; R7 makes them normative all the same.
-/

namespace Sys2Proof.Config

/-- `CRC_POLY` (R6); the top bit x^16 is implicit. -/
def crcPoly : Crc := 0x1021#16

/-- `CRC_INIT` (R6). There is no reflection and no final XOR (R65, R101). -/
def crcInit : Crc := 0xFFFF#16

/-- `HDR1` (R6). -/
def hdr1 : Byte := 0x47#8

/-- `HDR2` (R6). -/
def hdr2 : Byte := 0x54#8

/-- `MAX_PAYLOAD` (R6). -/
def maxPayload : Nat := 255

/-- `MIN_BUILD_PAYLOAD` (R6): the builder refuses the empty payload. -/
def minBuildPayload : Nat := 1

/-- `MIN_PARSE_PAYLOAD` (R6): the parser accepts the empty payload. -/
def minParsePayload : Nat := 0

/-- `PBUF_BYTES`, `RBUF_BYTES` and `TBUF_BYTES` (R6): each buffer has indices 0 to 254 (R60). -/
def bufBytes : Nat := 255

/-- DESIGN CHOICE (log 5), safe: what an index of a buffer that nothing has written holds. The spec
leaves it unspecified (R26, R29, R32); no claim can rest on its value. -/
opaque unwrittenByte : Space → Nat → Byte

/-- DESIGN CHOICE (log 6), safe: the draw that `rb_data` shows outside `[0, RLEN)` or while
`RVALID = 0` (R61, D23). The first argument is the state's draw counter, so that each cycle may show
another byte. -/
opaque strayRbData : Nat → Byte → Byte

/-- DESIGN CHOICE (log 7), safe: `tx_out_data` while `tx_out_valid = 0` (R80, "Meaningless"). -/
opaque idleTxOutData : Nat → Byte

end Sys2Proof.Config
end

