-- ==== Sys2Proof/Machine/State.lean ====
section
/-!
DEFINITION. The state of the block (R20, R43, R80), the ports the host drives, the observations
(R11), the reasons a step can stop, and the reset state.
-/

namespace Sys2Proof.Machine

/-- The outcome code that `ROUT` holds and `rx_outcome` shows (R28). All four codes of the 2-bit
register are named, so the type has exactly its values. -/
inductive RxOutcome where
  | none
  | needMore
  | resync
  | complete
  deriving DecidableEq, Repr

/-- The status code that `TSTAT` holds and `tx_status` shows (R33): the four codes of a 2-bit register. -/
inductive TxStatus where
  | none
  | ok
  | payloadTooLarge
  | emptyPayload
  deriving DecidableEq, Repr

/-- The six parser states (R23). `PST` itself is a 3-bit register, with two values that name none. -/
inductive Phase where
  | h1
  | h2
  | len
  | pay
  | crch
  | crcl
  deriving DecidableEq, Repr

/-- What a step lets the outside see (R11): `Rx(outcome, payload?)` and `Tx(status, frame?)`. R11's
`None` is the absence of an entry (log 8). -/
inductive Obs where
  | rx (o : RxOutcome) (payload : Option (List Byte))
  | tx (st : TxStatus) (frame : Option (List Byte))
  deriving DecidableEq, Repr

/-- The input ports at one rising edge of `clk` (R80). `rb_addr` only selects what the combinational
port `rb_data` shows; no register samples it (R61). -/
structure InPorts where
  rst : Bool := false
  rxValid : Bool := false
  rxData : Byte := 0
  crcInit : Bool := false
  crcValid : Bool := false
  crcData : Byte := 0
  txPush : Bool := false
  txBuild : Bool := false
  txData : Byte := 0
  txOutReady : Bool := false
  rbAddr : Byte := 0
  deriving DecidableEq, Repr

/-- What the host gives the block for one step (log 1). -/
inductive Input where
  /-- One accepted operation word, as R11's step function takes it (transaction level). -/
  | word (w : OpWord)
  /-- One rising edge with these port values (R80, R84; cycle level). -/
  | edge (p : InPorts)
  deriving DecidableEq, Repr

/-- A buffer's written bytes: index and byte, indices strictly rising. An index that is not listed
has not been written since reset (its byte is unspecified: R26, R29, R32). -/
abbrev Memory := List Host.Cell

/-- The state: R20's tuple, `TXOUT` (R35), the two registered strobes of R80, and the model's own
`inputs`, `obs` and `draws`. -/
structure State where
  /-- `PST`, parser state (R23). -/
  pst : BitVec 3
  /-- `PLEN`, declared payload length (R24). -/
  plen : Byte
  /-- `PCNT`, payload bytes accumulated (R25). -/
  pcnt : Byte
  /-- `PBUF`, payload accumulator (R26). -/
  pbuf : Memory
  /-- `PCRCH`, received CRC high byte (R27). -/
  pcrch : Byte
  /-- `ROUT`, outcome of the last `RX_BYTE` (R28). -/
  rout : RxOutcome
  /-- `RLEN`, length of the last completed payload (R29). -/
  rlen : Byte
  /-- `RBUF`, last completed payload (R29). -/
  rbuf : Memory
  /-- `RVALID` (R29). -/
  rvalid : Bool
  /-- `GCRC`, running CRC of the generator (R30). -/
  gcrc : Crc
  /-- `TCNT`, payload bytes pushed, 0 to 256 (R31). -/
  tcnt : BitVec 9
  /-- `TBUF`, payload being assembled (R32). -/
  tbuf : Memory
  /-- `TSTAT`, status of the last `TX_BUILD` (R33). -/
  tstat : TxStatus
  /-- `TXQ`, frame bytes not yet sent, next byte first (R34). -/
  txq : List Byte
  /-- `TXOUT`, every byte sent since reset, in order (R35). -/
  txout : List Byte
  /-- The registered strobe `rx_out_valid` (R80; log 11). -/
  rxOutValid : Bool
  /-- The registered strobe `tx_status_valid` (R80; log 11). -/
  txStatusValid : Bool
  /-- MODEL: what the host drives next, oldest first (log 1). -/
  inputs : List Input
  /-- MODEL: the observations so far, oldest first (R11; log 8). -/
  obs : List Obs
  /-- MODEL: how many steps have been taken, the argument of the free values (log 20). -/
  draws : Nat
  deriving DecidableEq, Repr

/-- Why the machine stops with a fault. The hardware raises none (R200). -/
inductive Fault where
  /-- Raised by a buffer access at index 255 or above, which exists in no buffer (R60). Reached only
  from states that break the invariants of R25 and R31. Safe (log 13). -/
  | noSuchIndex (sp : Space) (i : Nat)
  deriving DecidableEq, Repr

/-- Why a step has no meaning (R203). A refusal ends the run, which is R181's permanent mark (log 9). -/
inductive Refusal where
  /-- Raised by an arm of `exec` whose instruction has no meaning yet. Safe. None is left. -/
  | notModelled (mnemonic : String)
  /-- `refuse(ReservedOperation(op))`, raised by the reserved words (R181). Safe: the hardware has no
  behaviour for them. -/
  | reservedOperation (op : BitVec 4)
  /-- `refuse(IllegalParserState)`, raised by `RX_BYTE` while `PST` is 6 or 7 (R203). Safe: no rule
  writes these values. -/
  | illegalParserState
  deriving DecidableEq, Repr

/-- The outcome of a meaning. -/
abbrev Out := Host.Outcome State Fault Refusal

/-- Every register at the value of R43's table; the strobes low (R230); no input given yet (log 1). -/
def State.reset : State where
  pst := 0
  plen := 0
  pcnt := 0
  pbuf := []
  pcrch := 0
  rout := .none
  rlen := 0
  rbuf := []
  rvalid := false
  gcrc := 0xFFFF
  tcnt := 0
  tbuf := []
  tstat := .none
  txq := []
  txout := []
  rxOutValid := false
  txStatusValid := false
  inputs := []
  obs := []
  draws := 0

end Sys2Proof.Machine
end

