-- ==== Sys2Proof/Machine/Flags.lean ====
section
/-!
DEFINITION. The block has no flags register (R39). Its status values are `ROUT`, `TSTAT`, `RVALID`
and the derived `tx_busy`: their codes and how an operation records them. `PST`'s encoding is here too.
-/

namespace Sys2Proof.Machine

/-- The 2-bit code of `ROUT` (R28). -/
def RxOutcome.code : RxOutcome → BitVec 2
  | .none => 0
  | .needMore => 1
  | .resync => 2
  | .complete => 3

/-- The 2-bit code of `TSTAT` (R33). -/
def TxStatus.code : TxStatus → BitVec 2
  | .none => 0
  | .ok => 1
  | .payloadTooLarge => 2
  | .emptyPayload => 3

/-- The value of `PST` for a parser state (R23). -/
def Phase.code : Phase → BitVec 3
  | .h1 => 0
  | .h2 => 1
  | .len => 2
  | .pay => 3
  | .crch => 4
  | .crcl => 5

/-- The parser state that a value of `PST` names; 6 and 7 name none (R23). -/
def phaseOf (v : BitVec 3) : Option Phase :=
  match v.toNat with
  | 0 => some .h1
  | 1 => some .h2
  | 2 => some .len
  | 3 => some .pay
  | 4 => some .crch
  | 5 => some .crcl
  | _ => none

/-- `tx_busy = (TXQ != [])` (R34, R124). -/
def State.txBusy (s : State) : Bool := !s.txq.isEmpty

/-- `tx_ready = not tx_busy` (R80, R124). -/
def State.txReady (s : State) : Bool := !s.txBusy

end Sys2Proof.Machine
end

