-- ==== Sys2Proof/Machine/Operands.lean ====
section
/-!
DEFINITION. The operand forms: a data byte used as is, zero-extended (R8, R81), the counters as
numbers, and the big-endian byte pair of a CRC (R64).
-/

namespace Sys2Proof.Machine

/-- `zext_9(b)` (R8), the length byte as R144 compares it. -/
def zext9 (b : Byte) : BitVec 9 := b.setWidth 9

/-- `zext_16(b)` (R8). -/
def zext16 (b : Byte) : Crc := b.setWidth 16

/-- `crc[15:8]`, the byte that travels first (R64). -/
def crcHi (c : Crc) : Byte := c.extractLsb' 8 8

/-- `crc[7:0]`, the byte that travels second (R64). -/
def crcLo (c : Crc) : Byte := c.extractLsb' 0 8

/-- `{hi, lo}`: the CRC reassembled from its two wire bytes (R64, R147). -/
def crcPair (hi lo : Byte) : Crc := hi ++ lo

/-- `n[7:0]` of a length (R120). -/
def lengthByte (n : Nat) : Byte := BitVec.ofNat 8 n

end Sys2Proof.Machine
end

