-- ==== Sys2Proof/Machine/Ops.lean ====
section
/-!
DEFINITION. The operations that the meanings share: the byte buffers (R10, R60), `ParserClear`
(R141), the observations (R10, R11) and the transmit queue (R124).

There is no exception to take and none to return from: the block "raises no exception and takes no
trap" (R200), and no operation returns from a handler (R207). Its nearest analogue is the recovery
`ParserClear` (R206), which is `State.parserClear` below.
-/

namespace Sys2Proof.Machine

/-! ## Buffers -/

/-- The byte written last at an index, if one was. -/
def Memory.read? : Memory → Nat → Option Byte
  | [], _ => none
  | (k, v) :: m, a => if a = k then some v else Memory.read? m a

/-- Writes one byte, in the canonical form: indices strictly rising. -/
def Memory.write : Memory → Nat → Byte → Memory
  | [], a, b => [(a, b)]
  | (k, v) :: m, a, b =>
    if a < k then (a, b) :: (k, v) :: m
    else if a = k then (a, b) :: m
    else (k, v) :: Memory.write m a b

/-- `S[i..i+len(p)) <- p`, one byte at a time (R147). -/
def Memory.writeFrom : Memory → Nat → List Byte → Memory
  | m, _, [] => m
  | m, i, b :: bs => Memory.writeFrom (m.write i b) (i + 1) bs

/-- The canonical form: indices strictly rising, so that equal buffers are equal data. An unlisted
index holds no value in the list (log 5), so no entry can equal what an unlisted index reads as. -/
abbrev Memory.wf (m : Memory) : Prop := m.Pairwise (fun x y => x.1 < y.1)

/-- Every listed index exists in a buffer (R60). -/
abbrev Memory.inRange (m : Memory) : Prop := ∀ c ∈ m, c.1 < Config.bufBytes

/-- A buffer space (R60). -/
def State.space (s : State) : Space → Memory
  | .pbuf => s.pbuf
  | .rbuf => s.rbuf
  | .tbuf => s.tbuf

/-- Replaces the contents of a buffer space. -/
def State.setSpace (s : State) (sp : Space) (m : Memory) : State :=
  match sp with
  | .pbuf => { s with pbuf := m }
  | .rbuf => { s with rbuf := m }
  | .tbuf => { s with tbuf := m }

/-- The byte a buffer holds at an index: what was written there, or an unspecified byte (log 5). -/
def State.byteAt (s : State) (sp : Space) (i : Nat) : Byte :=
  ((s.space sp).read? i).getD (Config.unwrittenByte sp i)

/-- `MemRead(S, i, 1)` (R10). An index that does not exist (R60) is a fault. -/
def memRead (sp : Space) (i : Nat) (s : State) : Except Fault Byte :=
  if i < Config.bufBytes then .ok (s.byteAt sp i) else .error (.noSuchIndex sp i)

/-- `MemWrite(S, i, 1, v)` (R10). An index that does not exist (R60) is a fault. -/
def memWrite (sp : Space) (i : Nat) (v : Byte) (s : State) : Except Fault State :=
  if i < Config.bufBytes then .ok (s.setSpace sp ((s.space sp).write i v))
  else .error (.noSuchIndex sp i)

/-- The first `n` bytes of a buffer. -/
def State.prefixOf (s : State) (sp : Space) (n : Nat) : List Byte :=
  (List.range n).map (s.byteAt sp)

/-- `S[0..n)` (R9). It reads up to index `n - 1`; a length above the buffer's size reaches an index
that does not exist (R60). -/
def memReadPrefix (sp : Space) (n : Nat) (s : State) : Except Fault (List Byte) :=
  if n ≤ Config.bufBytes then .ok (s.prefixOf sp n) else .error (.noSuchIndex sp Config.bufBytes)

/-- `S[0..len(p)) <- p` (R147). -/
def memWritePrefix (sp : Space) (p : List Byte) (s : State) : Except Fault State :=
  if p.length ≤ Config.bufBytes then .ok (s.setSpace sp ((s.space sp).writeFrom 0 p))
  else .error (.noSuchIndex sp Config.bufBytes)

/-! ## Parser registers -/

/-- `PST <- …` (R142 to R147). -/
def State.goTo (s : State) (ph : Phase) : State := { s with pst := ph.code }

/-- `ParserClear` (R141). The contents of `PBUF` are not erased: no rule reads them (log 14). -/
def State.parserClear (s : State) : State :=
  { s with pst := Phase.code .h1, plen := 0, pcnt := 0, pcrch := 0 }

/-- `PLEN <- b; PCNT <- 0` (R144). -/
def State.declareLength (s : State) (b : Byte) : State := { s with plen := b, pcnt := 0 }

/-- `PCNT <- PCNT + 1` (R145). -/
def State.countPayloadByte (s : State) : State := { s with pcnt := s.pcnt + 1#8 }

/-- `PCRCH <- b` (R146). -/
def State.storeCrcHi (s : State) (b : Byte) : State := { s with pcrch := b }

/-- `RLEN <- n; RVALID <- 1` (R147, R148). -/
def State.markResult (s : State) (n : Nat) : State :=
  { s with rlen := lengthByte n, rvalid := true }

/-- The payload that goes with an outcome: `RBUF[0..RLEN)` exactly when it is `COMPLETE` (R11, R140). -/
def State.outcomePayload (s : State) (o : RxOutcome) : Option (List Byte) :=
  if o = .complete then some (s.prefixOf .rbuf s.rlen.toNat) else none

/-- `ROUT <- o; emit_rx(o, …)`, and the pulse of `rx_out_valid` (R140). -/
def State.recordOutcome (s : State) (o : RxOutcome) : State :=
  { s with rout := o, rxOutValid := true, obs := s.obs ++ [.rx o (s.outcomePayload o)] }

/-! ## Generator and builder registers -/

/-- `GCRC <- c` (R104, R105). -/
def State.setGcrc (s : State) (c : Crc) : State := { s with gcrc := c }

/-- `TCNT <- n` (R122, R123). -/
def State.setTcnt (s : State) (n : BitVec 9) : State := { s with tcnt := n }

/-- `TXQ <- f` (R123). -/
def State.queueFrame (s : State) (f : List Byte) : State := { s with txq := f }

/-- `TSTAT <- st; emit_tx(st, f); TCNT <- 0`, and the pulse of `tx_status_valid` (R123). -/
def State.recordStatus (s : State) (st : TxStatus) (f : Option (List Byte)) : State :=
  { s with tstat := st, txStatusValid := true, obs := s.obs ++ [.tx st f], tcnt := 0 }

/-! ## The serializer -/

/-- One output handshake: `TXQ[0]` leaves and is appended to `TXOUT` (R124). -/
def State.sendByte (s : State) : State :=
  { s with txq := s.txq.drop 1, txout := s.txout ++ s.txq.take 1 }

/-- Every queued byte leaves, in order: the transaction-level view of R34, R35 and R124. -/
def State.sendAll (s : State) : State := { s with txq := [], txout := s.txout ++ s.txq }

/-! ## Outcomes -/

/-- A fault stops the machine; otherwise the computed state is the next one. -/
def orFault (r : Except Fault State) : Out :=
  match r with
  | .ok s => .next s
  | .error f => .fault f

end Sys2Proof.Machine
end

