-- ==== Sys2Proof/Machine/Crc.lean ====
section
/-!
DEFINITION. CRC-16/CCITT-FALSE (R100 to R103) and the two operations of the generator (R104, R105).
-/

namespace Sys2Proof.Machine

/-- One of the eight iterations of R100. -/
def crcShift (a : Crc) : Crc :=
  if a.msb then (a <<< 1) ^^^ Config.crcPoly else a <<< 1

/-- `n` iterations of R100. -/
def crcShifts : Nat → Crc → Crc
  | 0, a => a
  | n + 1, a => crcShifts n (crcShift a)

/-- `crc_update(c, b)` (R100). -/
def crcUpdate (c : Crc) (b : Byte) : Crc := crcShifts 8 (c ^^^ (zext16 b <<< 8))

/-- `crc16(d)` (R101). -/
def crc16 (d : List Byte) : Crc := d.foldl crcUpdate Config.crcInit

/-- `crc0(d)`: the fold started from 0x0000 (R108). -/
def crc0 (d : List Byte) : Crc := d.foldl crcUpdate 0

/-- Bit `i` of the one-cycle, bit-parallel equations of R102. -/
def crcUpdateBit (c : Crc) (d : Byte) (i : Nat) : Bool :=
  let x (k : Nat) := c.getLsbD k
  let y (k : Nat) := d.getLsbD k
  match i with
  | 15 => x 7 ^^ x 11 ^^ x 15 ^^ y 3 ^^ y 7
  | 14 => x 6 ^^ x 10 ^^ x 14 ^^ y 2 ^^ y 6
  | 13 => x 5 ^^ x 9 ^^ x 13 ^^ y 1 ^^ y 5
  | 12 => x 4 ^^ x 8 ^^ x 12 ^^ x 15 ^^ y 0 ^^ y 4 ^^ y 7
  | 11 => x 3 ^^ x 14 ^^ y 6
  | 10 => x 2 ^^ x 13 ^^ y 5
  | 9 => x 1 ^^ x 12 ^^ y 4
  | 8 => x 0 ^^ x 11 ^^ x 15 ^^ y 3 ^^ y 7
  | 7 => x 10 ^^ x 14 ^^ x 15 ^^ y 2 ^^ y 6 ^^ y 7
  | 6 => x 9 ^^ x 13 ^^ x 14 ^^ y 1 ^^ y 5 ^^ y 6
  | 5 => x 8 ^^ x 12 ^^ x 13 ^^ y 0 ^^ y 4 ^^ y 5
  | 4 => x 12 ^^ y 4
  | 3 => x 11 ^^ x 15 ^^ y 3 ^^ y 7
  | 2 => x 10 ^^ x 14 ^^ y 2 ^^ y 6
  | 1 => x 9 ^^ x 13 ^^ y 1 ^^ y 5
  | 0 => x 8 ^^ x 12 ^^ y 0 ^^ y 4
  | _ => false

/-- The table `T[x] = crc_update(0x0000, x)` (R103). -/
def crcTable (x : Byte) : Crc := crcUpdate 0 x

/-- The table form of `crc_update` (R103). -/
def crcUpdateByTable (c : Crc) (b : Byte) : Crc :=
  (zext16 (crcLo c) <<< 8) ^^^ crcTable (crcHi c ^^^ b)

/-- `CRC_INIT` (R104): `GCRC <- 0xFFFF`. Always accepted. -/
def execCrcInit (s : State) : Out := .next (s.setGcrc Config.crcInit)

/-- `CRC_BYTE b` (R105): `GCRC <- crc_update(GCRC, b)`. Always accepted. -/
def execCrcByte (b : Byte) (s : State) : Out := .next (s.setGcrc (crcUpdate s.gcrc b))

end Sys2Proof.Machine
end

