-- ==== Sys2Proof/Machine/Builder.lean ====
section
/-!
DEFINITION. The frame builder: `build_frame` (R120), `TX_PUSH` (R122) and `TX_BUILD` (R123). Both
operations are accepted only while `tx_ready = 1`; offered otherwise they have no effect (R214, R238;
log 3).
-/

namespace Sys2Proof.Machine

/-- The result of `build_frame` (R120). -/
inductive BuildResult where
  | frame (f : List Byte)
  | payloadTooLarge
  | emptyPayload
  deriving DecidableEq, Repr

/-- The frame of a payload, byte for byte (R66). -/
def frameOf (p : List Byte) : List Byte :=
  [Config.hdr1, Config.hdr2, lengthByte p.length] ++ p ++ [crcHi (crc16 p), crcLo (crc16 p)]

/-- `build_frame(p)` (R120). -/
def buildFrame (p : List Byte) : BuildResult :=
  if p.length > Config.maxPayload then .payloadTooLarge
  else if p.length < Config.minBuildPayload then .emptyPayload
  else .frame (frameOf p)

/-- The body of `TX_PUSH` once it is accepted (R122): store and count, or saturate at 256. -/
def pushByte (b : Byte) (s : State) : Except Fault State :=
  if s.tcnt.toNat ≤ 254 then
    match memWrite .tbuf s.tcnt.toNat b s with
    | .ok t => .ok (t.setTcnt (s.tcnt + 1))
    | .error f => .error f
  else if s.tcnt.toNat = 255 then .ok (s.setTcnt 256)
  else .ok s

/-- `TX_PUSH b` (R122). -/
def execTxPush (b : Byte) (s : State) : Out :=
  if s.txReady then orFault (pushByte b s) else .next s

/-- Records a build's result: the queue, the status, the observation, and `TCNT <- 0` (R123). -/
def recordBuild (r : BuildResult) (s : State) : State :=
  match r with
  | .frame f => (s.queueFrame f).recordStatus .ok (some f)
  | .payloadTooLarge => s.recordStatus .payloadTooLarge none
  | .emptyPayload => s.recordStatus .emptyPayload none

/-- The body of `TX_BUILD` once it is accepted (R123). -/
def buildPushed (s : State) : Except Fault State :=
  if s.tcnt.toNat = 256 then .ok (recordBuild .payloadTooLarge s)
  else if s.tcnt.toNat = 0 then .ok (recordBuild .emptyPayload s)
  else
    match memReadPrefix .tbuf s.tcnt.toNat s with
    | .ok p => .ok (recordBuild (buildFrame p) s)
    | .error f => .error f

/-- `TX_BUILD` (R123). -/
def execTxBuild (s : State) : Out :=
  if s.txReady then orFault (buildPushed s) else .next s

end Sys2Proof.Machine
end

