-- ==== Sys2Proof/Machine/Misc.lean ====
section
/-!
DEFINITION. `NOP` (R180) and the reserved operation words (R181).
-/

namespace Sys2Proof.Machine

/-- `NOP` (R180): no state change, no observation. -/
def execNop (s : State) : Out := .next s

/-- `refuse(ReservedOperation(op))` (R181). -/
def refuseReserved (op : BitVec 4) (_ : State) : Out := .refused (.reservedOperation op)

/-- Op 0x6 (R181). -/
def execReserved6 (s : State) : Out := refuseReserved 0x6 s
/-- Op 0x7 (R181). -/
def execReserved7 (s : State) : Out := refuseReserved 0x7 s
/-- Op 0x8 (R181). -/
def execReserved8 (s : State) : Out := refuseReserved 0x8 s
/-- Op 0x9 (R181). -/
def execReserved9 (s : State) : Out := refuseReserved 0x9 s
/-- Op 0xA (R181). -/
def execReservedA (s : State) : Out := refuseReserved 0xA s
/-- Op 0xB (R181). -/
def execReservedB (s : State) : Out := refuseReserved 0xB s
/-- Op 0xC (R181). -/
def execReservedC (s : State) : Out := refuseReserved 0xC s
/-- Op 0xD (R181). -/
def execReservedD (s : State) : Out := refuseReserved 0xD s
/-- Op 0xE (R181). -/
def execReservedE (s : State) : Out := refuseReserved 0xE s
/-- Op 0xF (R181). -/
def execReservedF (s : State) : Out := refuseReserved 0xF s

end Sys2Proof.Machine
end

