-- ==== Sys2Proof/Machine/Parser.lean ====
section
/-!
DEFINITION. The frame parser: `RX_BYTE` (R140), one definition per parser state (R142 to R147).
-/

namespace Sys2Proof.Machine

/-- What a state's step answers: the state it leaves and the outcome it returns. -/
abbrev FeedResult := Except Fault (State × RxOutcome)

/-- AwaitHeader1 (R142). -/
def stepH1 (b : Byte) (s : State) : FeedResult :=
  .ok (if b = Config.hdr1 then s.goTo .h2 else s, .needMore)

/-- AwaitHeader2 (R143): a rejected byte is not tested again as a first header byte. -/
def stepH2 (b : Byte) (s : State) : FeedResult :=
  .ok (if b = Config.hdr2 then s.goTo .len else s.goTo .h1, .needMore)

/-- AwaitLength (R144). The guard can never fire (R144, C3); it is kept for the document's rule
(log 15). Length 0 goes straight to AwaitCrcHi (D8). -/
def stepLen (b : Byte) (s : State) : FeedResult :=
  if (zext9 b).toNat > Config.maxPayload then .ok (s.parserClear, .resync)
  else .ok ((s.declareLength b).goTo (if b = 0 then .crch else .pay), .needMore)

/-- AwaitPayload (R145). -/
def stepPay (b : Byte) (s : State) : FeedResult :=
  match memWrite .pbuf s.pcnt.toNat b s with
  | .ok t =>
    let u := t.countPayloadByte
    .ok (if u.pcnt = u.plen then u.goTo .crch else u, .needMore)
  | .error f => .error f

/-- AwaitCrcHi (R146). -/
def stepCrcHi (b : Byte) (s : State) : FeedResult :=
  .ok ((s.storeCrcHi b).goTo .crcl, .needMore)

/-- Delivers a completed payload into the result buffer (R148). -/
def deliver (p : List Byte) (s : State) : FeedResult :=
  match memWritePrefix .rbuf p s with
  | .ok t => .ok (t.markResult p.length, .complete)
  | .error f => .error f

/-- AwaitCrcLo (R147). -/
def stepCrcLo (b : Byte) (s : State) : FeedResult :=
  match memReadPrefix .pbuf s.plen.toNat s with
  | .ok p =>
    if crcPair s.pcrch b = crc16 p then deliver p s.parserClear
    else .ok (s.parserClear, .resync)
  | .error f => .error f

/-- `case PST of …` (R140). -/
def feed (ph : Phase) (b : Byte) (s : State) : FeedResult :=
  match ph with
  | .h1 => stepH1 b s
  | .h2 => stepH2 b s
  | .len => stepLen b s
  | .pay => stepPay b s
  | .crch => stepCrcHi b s
  | .crcl => stepCrcLo b s

/-- `RX_BYTE b` (R140). Always accepted; refused only while `PST` is 6 or 7 (R203). -/
def execRxByte (b : Byte) (s : State) : Out :=
  match phaseOf s.pst with
  | none => .refused .illegalParserState
  | some ph =>
    match feed ph b s with
    | .ok (t, o) => .next (t.recordOutcome o)
    | .error f => .fault f

end Sys2Proof.Machine
end

