-- ==== Sys2Proof/Machine/Clock.lean ====
section
/-!
DEFINITION. What happens at one rising edge of `clk`: reset (R230), the output handshake (R124), the
events accepted (R84) as operation words in their fixed order (R85); the transaction-level step on
one accepted operation word (R11, R124); and the output ports (R80).
-/

namespace Sys2Proof.Machine

/-- What every edge does before an operation takes effect: the one-cycle strobes fall (R80, R237) and
the free values of the next cycle are others (log 6, log 7). -/
def State.tick (s : State) : State :=
  { s with rxOutValid := false, txStatusValid := false, draws := s.draws + 1 }

/-- Takes the first of the pending inputs (log 1). -/
def State.popInput (s : State) : State := { s with inputs := s.inputs.drop 1 }

/-- An edge with `rst = 1`: every register takes its value of R43, `TXQ` is emptied and the strobes
are 0 (R230). The model's record of the run is kept (log 10). -/
def State.resetEdge (s : State) : State :=
  { State.reset with inputs := s.inputs, obs := s.obs, draws := s.draws }

/-- The operation words of the events accepted at an edge with `rst = 0` (R84), in the order of R85.
`tx_ready` is what the port shows at the edge, before any of them takes effect. -/
def acceptedWords (p : InPorts) (s : State) : List OpWord :=
  let ws :=
    (if p.rxValid then [opWord 0x1 p.rxData] else []) ++
    (if p.crcInit then [opWord 0x2 0x00] else []) ++
    (if p.crcValid then [opWord 0x3 p.crcData] else []) ++
    (if p.txPush && s.txReady then [opWord 0x4 p.txData] else []) ++
    (if p.txBuild && s.txReady then [opWord 0x5 0x00] else [])
  if ws.isEmpty then [opWord 0x0 0x00] else ws

/-- The output handshake: a byte leaves when it is offered and taken (R80, R124). -/
def handshake (p : InPorts) (s : State) : State :=
  if s.txBusy && p.txOutReady then s.sendByte else s

/-- Instructions in acceptance order (R68); a fault or a refusal ends it. -/
def runInstrs : List Instr → State → Out
  | [], s => .next s
  | i :: is, s =>
    match exec i s with
    | .next t => runInstrs is t
    | .fault f => .fault f
    | .refused r => .refused r

/-- Operation words in acceptance order (R85, R243). -/
def runWords (ws : List OpWord) (s : State) : Out := runInstrs (ws.map decode) s

/-- One rising edge. Reset wins over every event (R205, R230). The handshake acts on the byte offered
before the edge, and the words are accepted by `tx_ready` before the edge (R84; log 4). -/
def clockEdge (p : InPorts) (s : State) : Out :=
  if p.rst then .next s.tick.resetEdge
  else runWords (acceptedWords p s) (handshake p s.tick)

/-- The operations that are accepted only while `tx_ready = 1` (R84). -/
def needsTxReady : Instr → Bool
  | .txPush _ | .txBuild => true
  | .nop | .rxByte _ | .crcInit | .crcByte _ => false
  | .reserved6 | .reserved7 | .reserved8 | .reserved9 | .reservedA
  | .reservedB | .reservedC | .reservedD | .reservedE | .reservedF => false

/-- Sends what is queued, after an operation that may have queued it. -/
def drainAfter (r : Out) : Out :=
  match r with
  | .next t => .next t.sendAll
  | .fault f => .fault f
  | .refused r => .refused r

/-- One ACCEPTED operation, the step of R11. At transaction level a built frame moves to `TXOUT` at
once (R34, R35, R124); an accepted `TX_PUSH` or `TX_BUILD` found `tx_ready = 1`, so what was queued
has left before it (log 2). No other operation drains `TXQ` (R180). -/
def transact (i : Instr) (s : State) : Out :=
  if needsTxReady i then drainAfter (exec i s.sendAll) else exec i s

/-! ## Output ports -/

/-- The output ports (R80). -/
structure OutPorts where
  rxOutValid : Bool
  rxOutcome : BitVec 2
  rxLen : Byte
  rbValid : Bool
  rbData : Byte
  stPst : BitVec 3
  crcValue : Crc
  txReady : Bool
  txStatus : BitVec 2
  txStatusValid : Bool
  txCount : BitVec 9
  txOutValid : Bool
  txOutData : Byte
  deriving DecidableEq, Repr

/-- `rb_data` (R61): the result byte at an index below `RLEN` of a valid result, otherwise a draw
(log 6). -/
def State.rbData (s : State) (addr : Byte) : Byte :=
  if s.rvalid && decide (addr.toNat < s.rlen.toNat) then s.byteAt .rbuf addr.toNat
  else Config.strayRbData s.draws addr

/-- `tx_out_data` (R80): `TXQ[0]`, and a draw while nothing is offered (log 7). -/
def State.txOutData (s : State) : Byte := s.txq.head?.getD (Config.idleTxOutData s.draws)

/-- What the output ports show in a state while the host drives `rb_addr` (R80). Reading them changes
nothing (R63). -/
def outPorts (s : State) (rbAddr : Byte) : OutPorts where
  rxOutValid := s.rxOutValid
  rxOutcome := s.rout.code
  rxLen := s.rlen
  rbValid := s.rvalid
  rbData := s.rbData rbAddr
  stPst := s.pst
  crcValue := s.gcrc
  txReady := s.txReady
  txStatus := s.tstat.code
  txStatusValid := s.txStatusValid
  txCount := s.tcnt
  txOutValid := s.txBusy
  txOutData := s.txOutData

/-- What the output ports show during the cycle in which the host drives the input ports `p`: the one
input they depend on is `rb_addr` (R61, R80). -/
def portsDuring (p : InPorts) (s : State) : OutPorts := outPorts s p.rbAddr

end Sys2Proof.Machine
end

