-- ==== Sys2Proof/Machine/Step.lean ====
section
/-!
DEFINITION. The step: one pending input, an operation word (R11) or a clock edge (R84). With no input
pending the ports are quiet, which is an idle edge (log 1).
-/

namespace Sys2Proof.Machine

/-- One step of the machine. -/
def step (s : State) : Host.Outcome State Fault Refusal :=
  match s.inputs with
  | [] => clockEdge {} s
  | .word w :: _ => transact (decode w) s.popInput.tick
  | .edge p :: _ => clockEdge p s.popInput

/-- `s` with the instruction word as the very next input (log 1, log 19). -/
def State.withFetchWord (s : State) (nbits w : Nat) : State :=
  { s with inputs := .word (BitVec.ofNat 12 (w % 2 ^ nbits)) :: s.inputs }

end Sys2Proof.Machine
end

