-- ==== Sys2Proof/WellFormed.lean ====
section
/-!
DEFINITION. Which terms of the syntax stand for something the block can be given: the six operations
of R82, and the assembler lines whose operands are in range (R88, R89).
-/

namespace Sys2Proof

/-- The instruction is one of the six operations of R82, not a reserved word (R181). Every value of a
byte operand is legal (R105, R122, R140), so there is nothing else to check. -/
def Instr.wf : Instr → Bool
  | .nop | .rxByte _ | .crcInit | .crcByte _ | .txPush _ | .txBuild => true
  | .reserved6 | .reserved7 | .reserved8 | .reserved9 | .reservedA
  | .reservedB | .reservedC | .reservedD | .reservedE | .reservedF => false

/-- A byte operand is 0 to 255 (R88). -/
def byteOperandOk (v : Nat) : Bool := v ≤ 255

/-- The checks of an assembler line: operand range (R88), at most 255 payload bytes for `RX_FRAME`,
at least one byte for `RX_SEQ` and `CRC_SEQ`, whose operand list starts at `b0` (R89; DEDUCED, log 16). -/
def AsmOp.wf : AsmOp → Bool
  | .nop | .crcInit | .txBuild => true
  | .rxByte v | .crcByte v | .txPush v => byteOperandOk v
  | .rxSeq vs | .crcSeq vs => !vs.isEmpty && vs.all byteOperandOk
  | .rxFrame vs => decide (vs.length ≤ Config.maxPayload) && vs.all byteOperandOk
  | .txFrame vs => vs.all byteOperandOk

end Sys2Proof
end

