-- ==== Sys2Proof/Machine/Assembler.lean ====
section
/-!
DEFINITION. The assembler syntax (R88) and the pseudo-instructions (R89), from a line of text to
operation words. Text is a list of characters, so that the kernel can evaluate it. Not semantic (D25).
-/

namespace Sys2Proof.Machine

/-- The pieces of a line: a run of letters and digits, a string literal, a comma. -/
inductive Token where
  | word (cs : List Char)
  | str (cs : List Char)
  | comma
  deriving DecidableEq, Repr

/-- The double quote that opens and closes a string literal (R89). -/
def quoteChar : Char := Char.ofNat 34

/-- Ends the run of characters read so far (kept in reverse). -/
def flushWord (cur : List Char) (ts : List Token) : List Token :=
  if cur.isEmpty then ts else .word cur.reverse :: ts

/-- The tokens of a line up to its comment (R88). Blanks separate; DESIGN CHOICE (log 16): a blank is
a space or a tab, a quote may not stand inside a run, and a `;` inside a string opens no comment. -/
def lex : List Char → List Char → Bool → Option (List Token)
  | [], cur, false => some (flushWord cur [])
  | [], _, true => none
  | c :: cs, cur, true =>
    if c = quoteChar then (lex cs [] false).map (.str cur.reverse :: ·) else lex cs (c :: cur) true
  | c :: cs, cur, false =>
    if c = ';' then some (flushWord cur [])
    else if c = quoteChar then (if cur.isEmpty then lex cs [] true else none)
    else if c = ',' then (lex cs [] false).map fun ts => flushWord cur (.comma :: ts)
    else if c = ' ' || c = '\t' then (lex cs [] false).map (flushWord cur)
    else lex cs (c :: cur) false

/-- The value of a decimal digit. -/
def decDigit (c : Char) : Option Nat :=
  if '0'.toNat ≤ c.toNat ∧ c.toNat ≤ '9'.toNat then some (c.toNat - '0'.toNat) else none

/-- The value of a hex digit; DESIGN CHOICE (log 16): of either case. -/
def hexDigit (c : Char) : Option Nat :=
  if 'a'.toNat ≤ c.toNat ∧ c.toNat ≤ 'f'.toNat then some (c.toNat - 'a'.toNat + 10)
  else if 'A'.toNat ≤ c.toNat ∧ c.toNat ≤ 'F'.toNat then some (c.toNat - 'A'.toNat + 10)
  else decDigit c

/-- A decimal numeral, most significant digit first. R88 says only "decimal 0..255"; DESIGN CHOICE
(log 16): any number of leading zeros may stand before it. -/
def decNumber : List Char → Nat → Option Nat
  | [], n => some n
  | c :: cs, n => (decDigit c).bind fun d => decNumber cs (10 * n + d)

/-- `byte := "0x" hex hex | decimal` (R88). The range is WellFormed's check. -/
def parseByte : List Char → Option Nat
  | ['0', 'x', h, l] => (hexDigit h).bind fun a => (hexDigit l).map fun b => 16 * a + b
  | [] => none
  | cs => decNumber cs 0

/-- A comma-separated list of byte operands. -/
def parseByteList : List Token → Option (List Nat)
  | [.word w] => (parseByte w).map ([·])
  | .word w :: .comma :: ts => (parseByte w).bind fun v => (parseByteList ts).map (v :: ·)
  | _ => none

/-- The operands of a pseudo-instruction: none, a string literal (the ASCII codes of its characters,
PRESUMED: general knowledge by R89's own mark, log 16), or a list. An empty string is no operand
(DESIGN CHOICE, log 16). -/
def parseBytes : List Token → Option (List Nat)
  | [] => some []
  | [.str cs] => if cs.all (fun c => c.toNat < 128) then some (cs.map Char.toNat) else none
  | ts => parseByteList ts

/-- The single byte operand of an operation. -/
def parseOperand : List Token → Option Nat
  | [.word w] => parseByte w
  | _ => none

/-- No operand may stand after the mnemonic (R88). -/
def noOperand (a : AsmOp) : List Token → Option AsmOp
  | [] => some a
  | _ => none

/-- `"NOP"`. -/
def nameNop : List Char := ['N', 'O', 'P']
/-- `"RX_BYTE"`. -/
def nameRxByte : List Char := ['R', 'X', '_', 'B', 'Y', 'T', 'E']
/-- `"CRC_INIT"`. -/
def nameCrcInit : List Char := ['C', 'R', 'C', '_', 'I', 'N', 'I', 'T']
/-- `"CRC_BYTE"`. -/
def nameCrcByte : List Char := ['C', 'R', 'C', '_', 'B', 'Y', 'T', 'E']
/-- `"TX_PUSH"`. -/
def nameTxPush : List Char := ['T', 'X', '_', 'P', 'U', 'S', 'H']
/-- `"TX_BUILD"`. -/
def nameTxBuild : List Char := ['T', 'X', '_', 'B', 'U', 'I', 'L', 'D']
/-- `"RX_SEQ"`. -/
def nameRxSeq : List Char := ['R', 'X', '_', 'S', 'E', 'Q']
/-- `"RX_FRAME"`. -/
def nameRxFrame : List Char := ['R', 'X', '_', 'F', 'R', 'A', 'M', 'E']
/-- `"CRC_SEQ"`. -/
def nameCrcSeq : List Char := ['C', 'R', 'C', '_', 'S', 'E', 'Q']
/-- `"TX_FRAME"`. -/
def nameTxFrame : List Char := ['T', 'X', '_', 'F', 'R', 'A', 'M', 'E']

/-- An operation or a pseudo-instruction, by its upper-case mnemonic (R88, R89). -/
def parseOp (m : List Char) (args : List Token) : Option AsmOp :=
  if m = nameNop then noOperand .nop args
  else if m = nameRxByte then (parseOperand args).map .rxByte
  else if m = nameCrcInit then noOperand .crcInit args
  else if m = nameCrcByte then (parseOperand args).map .crcByte
  else if m = nameTxPush then (parseOperand args).map .txPush
  else if m = nameTxBuild then noOperand .txBuild args
  else if m = nameRxSeq then (parseBytes args).map .rxSeq
  else if m = nameRxFrame then (parseBytes args).map .rxFrame
  else if m = nameCrcSeq then (parseBytes args).map .crcSeq
  else if m = nameTxFrame then (parseBytes args).map .txFrame
  else none

/-- `line := [op] [";" comment]` (R88): `some none` for a line without an operation. -/
def parseLine (cs : List Char) : Option (Option AsmOp) :=
  match lex cs [] false with
  | none => none
  | some [] => some none
  | some (.word m :: args) => (parseOp m args).map some
  | some (.str _ :: _) => none
  | some (.comma :: _) => none

/-- The byte of an operand that is in range. -/
def operandByte (v : Nat) : Byte := BitVec.ofNat 8 v

/-- `RX_BYTE b0 ... RX_BYTE bk` (R89). -/
def rxSeqOf (bs : List Byte) : List Instr := bs.map .rxByte

/-- The operations of a line (R88, R89). `RX_FRAME` computes the CRC itself. -/
def expand : AsmOp → List Instr
  | .nop => [.nop]
  | .rxByte v => [.rxByte (operandByte v)]
  | .crcInit => [.crcInit]
  | .crcByte v => [.crcByte (operandByte v)]
  | .txPush v => [.txPush (operandByte v)]
  | .txBuild => [.txBuild]
  | .rxSeq vs => rxSeqOf (vs.map operandByte)
  | .rxFrame vs => rxSeqOf (frameOf (vs.map operandByte))
  | .crcSeq vs => .crcInit :: (vs.map operandByte).map .crcByte
  | .txFrame vs => (vs.map operandByte).map .txPush ++ [.txBuild]

/-- The words of a line; an operand out of range is an assembly error (R88). -/
def assemble (a : AsmOp) : Option (List OpWord) :=
  if a.wf then some ((expand a).map encode) else none

/-- The words that a line of text assembles to. -/
def assembleLine (cs : List Char) : Option (List OpWord) :=
  match parseLine cs with
  | none => none
  | some none => some []
  | some (some a) => assemble a

/-- The upper-case hex digit of a value below 16. -/
def hexChar (n : Nat) : Char :=
  if n < 10 then Char.ofNat ('0'.toNat + n) else Char.ofNat ('A'.toNat + (n - 10))

/-- A byte operand, written `0xHH` (R88), with the upper-case digits of the spec's programs (log 16). -/
def printByte (b : Byte) : List Char := ['0', 'x', hexChar (b.toNat / 16), hexChar (b.toNat % 16)]

/-- A word, printed as three hex digits after `0x` (R88). -/
def printWord (w : OpWord) : List Char :=
  ['0', 'x', hexChar (w.toNat / 256), hexChar (w.toNat / 16 % 16), hexChar (w.toNat % 16)]

/-- The line of an operation; a reserved word has no mnemonic in the syntax (R88). -/
def printInstr : Instr → Option (List Char)
  | .nop => some nameNop
  | .rxByte b => some (nameRxByte ++ [' '] ++ printByte b)
  | .crcInit => some nameCrcInit
  | .crcByte b => some (nameCrcByte ++ [' '] ++ printByte b)
  | .txPush b => some (nameTxPush ++ [' '] ++ printByte b)
  | .txBuild => some nameTxBuild
  | .reserved6 | .reserved7 | .reserved8 | .reserved9 | .reservedA
  | .reservedB | .reservedC | .reservedD | .reservedE | .reservedF => none

end Sys2Proof.Machine
end

