-- ==== Sys2Proof/Machine/Abstract.lean ====
section
/-!
DEFINITION. The abstract parser of R38: the sum type, the map from the registers, and the transition
relation of R149 on it. The machine runs on the registers; this is the handier view that claims use.
-/

namespace Sys2Proof.Machine

/-- `ParserState` (R38). The lengths that the rule notes beside the constructors are
`ParserState.lengthsOk`. -/
inductive ParserState where
  | h1
  | h2
  | len
  | pay (declared : Fin 256) (acc : List Byte)
  | crch (payload : List Byte)
  | crcl (payload : List Byte) (crcHigh : Byte)
  deriving DecidableEq, Repr

/-- The two invariants of the sum type (R38): `len acc < declared` and `len payload <= 255`. -/
def ParserState.lengthsOk : ParserState → Bool
  | .h1 | .h2 | .len => true
  | .pay n acc => decide (acc.length < n.val)
  | .crch p => decide (p.length ≤ 255)
  | .crcl p _ => decide (p.length ≤ 255)

/-- The length byte as the declared length of `PAY` (R24, R38). -/
def declaredLength (b : Byte) : Fin 256 := b.toFin

/-- The outcome of the document's `feed` (R11): `NeedMore | Resync | Complete(payload)`. -/
inductive FeedOutcome where
  | needMore
  | resync
  | complete (payload : List Byte)
  deriving DecidableEq, Repr

/-- The code that `ROUT` holds for an outcome (R28). -/
def FeedOutcome.register : FeedOutcome → RxOutcome
  | .needMore => .needMore
  | .resync => .resync
  | .complete _ => .complete

/-- The payload an outcome carries (R11). -/
def FeedOutcome.payload : FeedOutcome → Option (List Byte)
  | .complete p => some p
  | .needMore | .resync => none

/-- The map from the registers (R38); 6 and 7 have no abstract state. -/
def State.parserView (s : State) : Option ParserState :=
  match phaseOf s.pst with
  | none => none
  | some .h1 => some .h1
  | some .h2 => some .h2
  | some .len => some .len
  | some .pay => some (.pay (declaredLength s.plen) (s.prefixOf .pbuf s.pcnt.toNat))
  | some .crch => some (.crch (s.prefixOf .pbuf s.plen.toNat))
  | some .crcl => some (.crcl (s.prefixOf .pbuf s.plen.toNat) s.pcrch)

/-- The result buffer as R29's model: `none` until a payload has completed. -/
def State.resultView (s : State) : Option (List Byte) :=
  if s.rvalid then some (s.prefixOf .rbuf s.rlen.toNat) else none

/-- The transition table of R149. -/
def feedAbstract (ps : ParserState) (b : Byte) : ParserState × FeedOutcome :=
  match ps with
  | .h1 => (if b = Config.hdr1 then .h2 else .h1, .needMore)
  | .h2 => (if b = Config.hdr2 then .len else .h1, .needMore)
  | .len => (if b = 0 then .crch [] else .pay (declaredLength b) [], .needMore)
  | .pay n acc => (if acc.length + 1 = n.val then .crch (acc ++ [b]) else .pay n (acc ++ [b]), .needMore)
  | .crch p => (.crcl p b, .needMore)
  | .crcl p hi => if crcPair hi b = crc16 p then (.h1, .complete p) else (.h1, .resync)

/-- The outcomes of a stream of bytes, and the parser state after it. -/
def feedStream : ParserState → List Byte → ParserState × List FeedOutcome
  | ps, [] => (ps, [])
  | ps, b :: bs =>
    let (ps', o) := feedAbstract ps b
    let (ps'', os) := feedStream ps' bs
    (ps'', o :: os)

end Sys2Proof.Machine
end

