-- ==== Sys2Proof/Safety.lean ====
section
/-!
DEFINITION. The terms that claims use: which parts of the state an operation leaves alone (R20, R107),
the invariant of the machine (R25, R29, R31, R34, R60, R152), and what the transmit side has taken on.
-/

namespace Sys2Proof.Machine

/-! ## The disjoint groups of R20 -/

/-- The parser's registers agree (R23 to R27). -/
def SameParser (s t : State) : Prop :=
  t.pst = s.pst ∧ t.plen = s.plen ∧ t.pcnt = s.pcnt ∧ t.pbuf = s.pbuf ∧ t.pcrch = s.pcrch

/-- The receive result agrees (R28, R29). -/
def SameResult (s t : State) : Prop :=
  t.rout = s.rout ∧ t.rlen = s.rlen ∧ t.rbuf = s.rbuf ∧ t.rvalid = s.rvalid

/-- The generator agrees (R30). -/
def SameGenerator (s t : State) : Prop := t.gcrc = s.gcrc

/-- The builder and what it has sent agree (R31 to R35). -/
def SameBuilder (s t : State) : Prop :=
  t.tcnt = s.tcnt ∧ t.tbuf = s.tbuf ∧ t.tstat = s.tstat ∧ t.txq = s.txq ∧ t.txout = s.txout

/-- The function an instruction belongs to (R82). -/
inductive FunctionGroup where
  | noFunction
  | parser
  | generator
  | builder
  deriving DecidableEq, Repr

/-- R82's column "function"; a reserved word belongs to none. -/
def groupOf : Instr → FunctionGroup
  | .rxByte _ => .parser
  | .crcInit | .crcByte _ => .generator
  | .txPush _ | .txBuild => .builder
  | .nop => .noFunction
  | .reserved6 | .reserved7 | .reserved8 | .reserved9 | .reservedA
  | .reservedB | .reservedC | .reservedD | .reservedE | .reservedF => .noFunction

/-! ## The invariant -/

/-- Indices 0 to `n - 1` of a buffer have been written. -/
def Memory.writtenTo (m : Memory) (n : Nat) : Prop := ∀ i < n, (m.read? i).isSome = true

/-- `PLEN`, `PCNT` and `PCRCH` are what the parser state allows (R25, R141, R145, R146). -/
def State.accumulatorsOk (s : State) : Bool :=
  match phaseOf s.pst with
  | none => false
  | some .h1 => s.plen == 0 && s.pcnt == 0 && s.pcrch == 0
  | some .h2 => s.plen == 0 && s.pcnt == 0 && s.pcrch == 0
  | some .len => s.plen == 0 && s.pcnt == 0 && s.pcrch == 0
  | some .pay => decide (s.pcnt.toNat < s.plen.toNat) && s.pcrch == 0
  | some .crch => s.pcnt == s.plen && s.pcrch == 0
  | some .crcl => s.pcnt == s.plen

/-- What every step keeps and reset has. -/
structure Invariant (s : State) : Prop where
  /-- `PST` names a state and the accumulators fit it (R23, R25). -/
  accumulators : s.accumulatorsOk = true
  /-- `PBUF[0..PCNT)` holds received bytes (R26). -/
  payloadHeld : s.pbuf.writtenTo s.pcnt.toNat
  /-- A valid result is held whole (R29). -/
  resultHeld : s.rvalid = true → s.rbuf.writtenTo s.rlen.toNat
  /-- Without a result its length is 0 (R29). -/
  resultAbsent : s.rvalid = false → s.rlen = 0
  /-- `COMPLETE` means that a result is held (R28, R29). -/
  completeHeld : s.rout = .complete → s.rvalid = true
  /-- `TCNT` is 0 to 256 (R31). -/
  pushCount : s.tcnt.toNat ≤ 256
  /-- `TBUF[0..min(TCNT,255))` holds pushed bytes (R32). -/
  pushedHeld : s.tbuf.writtenTo (min s.tcnt.toNat 255)
  /-- `TXQ` is at most the longest frame (R34). -/
  queueBound : s.txq.length ≤ 260
  /-- Every buffer is in its canonical form. -/
  buffersCanonical : ∀ sp, (s.space sp).wf
  /-- No buffer holds an index that does not exist (R60). -/
  buffersInRange : ∀ sp, (s.space sp).inRange

/-! ## The transmit side and the observations -/

/-- The frame bytes of the observations, in order: what `TX_BUILD` has framed (R35). -/
def framesIn : List Obs → List Byte
  | [] => []
  | .tx .ok (some f) :: os => f ++ framesIn os
  | .tx .ok none :: os => framesIn os
  | .tx .none _ :: os => framesIn os
  | .tx .payloadTooLarge _ :: os => framesIn os
  | .tx .emptyPayload _ :: os => framesIn os
  | .rx _ _ :: os => framesIn os

/-- The bytes sent and those still queued, in the order they leave (R34, R35). -/
def State.transmitted (s : State) : List Byte := s.txout ++ s.txq

/-- The observations of the steps from `s` to `t` (R11). -/
def observedBetween (s t : State) : List Obs := t.obs.drop s.obs.length

/-- The operation has an observation (R11): `RX_BYTE` and `TX_BUILD` do. -/
def hasObservation : Instr → Bool
  | .rxByte _ | .txBuild => true
  | .nop | .crcInit | .crcByte _ | .txPush _ => false
  | .reserved6 | .reserved7 | .reserved8 | .reserved9 | .reservedA
  | .reservedB | .reservedC | .reservedD | .reservedE | .reservedF => false

/-- The next input is a reset edge (R230). -/
def State.resetNext (s : State) : Bool :=
  match s.inputs with
  | .edge p :: _ => p.rst
  | .word _ :: _ => false
  | [] => false

/-- The observations of a byte stream: one per byte, `NEED_MORE` (R11). -/
def needMoreObs (n : Nat) : List Obs := List.replicate n (.rx .needMore none)

/-- `RX_BYTE` for each byte of a stream, in order (R89, RX_SEQ). -/
def rxBytes (bs : List Byte) : List Instr := bs.map .rxByte

/-- `TX_PUSH` for each byte of a payload, then `TX_BUILD` (R89, TX_FRAME). -/
def txFrame (p : List Byte) : List Instr := p.map .txPush ++ [.txBuild]

/-- A frame with bit `j` of the byte at offset `k` flipped (R155). -/
def flipBit (f : List Byte) (k j : Nat) : List Byte := f.modify k (· ^^^ (1#8 <<< j))

end Sys2Proof.Machine
end

