-- ==== Sys2Proof/Certificates/Slice0/Obligations.lean ====
section
/-!
DEFINITION. The statements for the provers. Each docstring names the rule of spec/ that it formalises.
A next state is written as the state before it with the fields the instruction writes; every field not
written there is unchanged. A buffer that is written is given byte by byte through `State.byteAt`.
-/

open Sys2Proof Sys2Proof.Machine

/-! ## Encoding and assembler -/

/-- R82, R83: each op value decodes to its operation, and the words of 95_test_vectors.md to theirs. -/
def Obligations.KnownWordsDecode : Prop :=
  decode 0x000 = .nop ∧ decode 0x0AB = .nop ∧ decode 0x147 = .rxByte 0x47 ∧ decode 0x200 = .crcInit ∧
  decode 0x2AB = .crcInit ∧ decode 0x3FF = .crcByte 0xFF ∧ decode 0x401 = .txPush 0x01 ∧
  decode 0x500 = .txBuild ∧ decode 0x5AB = .txBuild ∧ decode 0x600 = .reserved6 ∧
  decode 0x6FF = .reserved6 ∧ decode 0xF00 = .reservedF

/-- R86: decoding is total, and the op field alone chooses the operation; the data field is the operand
of `RX_BYTE`, `CRC_BYTE` and `TX_PUSH` (R82); for an op of 6 or more it is `Reserved(op)`, which is refused. -/
def Obligations.DecodingFollowsOpField : Prop :=
  ∀ w : OpWord, opcodeOf (decode w) = opField w ∧
    ((decode w).wf = true ↔ (opField w).toNat < 6) ∧
    operandOf (decode w) =
      (if opField w = 1 ∨ opField w = 3 ∨ opField w = 4 then dataField w else 0) ∧
    (6 ≤ (opField w).toNat → ∀ s : State,
      exec (decode w) s = .refused (.reservedOperation (opField w)))

/-- R83: the data field of `NOP`, `CRC_INIT` and `TX_BUILD` is ignored, and is 0 in the canonical word. -/
def Obligations.IgnoredDataSelectsSameOperation : Prop :=
  (∀ d : Byte, decode (opWord 0x0 d) = .nop ∧ decode (opWord 0x2 d) = .crcInit ∧
    decode (opWord 0x5 d) = .txBuild) ∧
  dataField (encode .nop) = 0x00 ∧ dataField (encode .crcInit) = 0x00 ∧ dataField (encode .txBuild) = 0x00

/-- R82, R88: an instruction survives its encoding, and a well-formed one survives its assembler line
as well: the line assembles to exactly its word. -/
def Obligations.InstructionSurvivesWordAndText : Prop :=
  (∀ i : Instr, decode (encode i) = i ∧ decodeTableWord 16 (encode i).toNat = some i) ∧
  (∀ i : Instr, i.wf = true →
    ∃ cs, printInstr i = some cs ∧ assembleLine cs = some [encode i]) ∧
  (∀ i : Instr, i.wf = false → printInstr i = none)

/-- R88: a byte operand outside 0..255 is an assembly error and not a truncation. -/
def Obligations.OperandOutOfRangeIsAssemblyError : Prop :=
  ∀ v : Nat,
    (v ≤ 255 → assemble (.rxByte v) = some [opWord 0x1 (BitVec.ofNat 8 v)] ∧
      assemble (.crcByte v) = some [opWord 0x3 (BitVec.ofNat 8 v)] ∧
      assemble (.txPush v) = some [opWord 0x4 (BitVec.ofNat 8 v)]) ∧
    (255 < v → assemble (.rxByte v) = none ∧ assemble (.crcByte v) = none ∧
      assemble (.txPush v) = none)

/-- R89: what the pseudo-instructions expand to, for operands in range. -/
def Obligations.PseudoInstructionsExpand : Prop :=
  ∀ p : List Byte,
    (p.length ≤ 255 → assemble (.rxFrame (p.map BitVec.toNat)) =
      some ((frameOf p).map fun b => opWord 0x1 b)) ∧
    (p ≠ [] → assemble (.rxSeq (p.map BitVec.toNat)) = some (p.map fun b => opWord 0x1 b)) ∧
    (p ≠ [] → assemble (.crcSeq (p.map BitVec.toNat)) = some (0x200 :: p.map fun b => opWord 0x3 b)) ∧
    assemble (.txFrame (p.map BitVec.toNat)) = some ((p.map fun b => opWord 0x4 b) ++ [0x500])

/-! ## The CRC -/

/-- R100, R101, R103: values of 95_test_vectors.md sections 2.1 and 2.2. -/
def Obligations.CrcKnownValues : Prop :=
  crcUpdate 0xFFFF 0x00 = 0xE1F0 ∧ crcUpdate 0x1234 0x56 = 0x3C40 ∧ crcUpdate 0x8000 0x00 = 0x9188 ∧
  crc16 [0x01, 0x02] = 0x0E7C ∧ crc16 [0x47, 0x54] = 0x9325 ∧
  crc16 [0x31, 0x32, 0x33, 0x34, 0x35, 0x36, 0x37, 0x38, 0x39] = 0x29B1

/-- R102: `crc_update` is linear over GF(2), and each bit of it is the equation of the rule. -/
def Obligations.CrcUpdateIsLinearWithGivenEquations : Prop :=
  (∀ (c : Crc) (d : Byte), crcUpdate c d = crcUpdate c 0 ^^^ crcUpdate 0 d) ∧
  (∀ c c' : Crc, crcUpdate (c ^^^ c') 0 = crcUpdate c 0 ^^^ crcUpdate c' 0) ∧
  (∀ d d' : Byte, crcUpdate 0 (d ^^^ d') = crcUpdate 0 d ^^^ crcUpdate 0 d') ∧
  ∀ (c : Crc) (d : Byte) (i : Nat), i < 16 → (crcUpdate c d).getLsbD i = crcUpdateBit c d i

/-- R103: the table form computes the same function. -/
def Obligations.CrcTableFormAgrees : Prop :=
  (∀ (c : Crc) (b : Byte),
    crcUpdate c b = ((c &&& 0x00FF) <<< 8) ^^^ crcTable (c.extractLsb' 8 8 ^^^ b)) ∧
  (∀ x : Byte, crcTable x = crcUpdate 0x0000 x) ∧
  crcTable 0x00 = 0x0000 ∧ crcTable 0x01 = 0x1021 ∧ crcTable 0x80 = 0x9188

/-- R101: `crc16` is the left fold of `crc_update` from 0xFFFF; of the empty sequence it is 0xFFFF, and a
concatenation continues the fold, so a running register gives the same value (R36). -/
def Obligations.CrcOfConcatenationContinues : Prop :=
  (∀ d : List Byte, crc16 d = d.foldl crcUpdate 0xFFFF) ∧
  crc16 [] = 0xFFFF ∧
  (∀ a b : List Byte, crc16 (a ++ b) = b.foldl crcUpdate (crc16 a)) ∧
  (∀ (a : List Byte) (b : Byte), crc16 (a ++ [b]) = crcUpdate (crc16 a) b) ∧
  crc16 [0x31, 0x32, 0x33, 0x34, 0x35, 0x36, 0x37, 0x38, 0x39] = 0x29B1

/-- R108: affinity, and every single-bit change of the data changes the CRC. -/
def Obligations.CrcIsAffineAndDetectsSingleBit : Prop :=
  crc16 [] = 0xFFFF ∧
  (∀ a b : List Byte, a.length = b.length → crc16 a ^^^ crc16 b = crc0 (List.zipWith (· ^^^ ·) a b)) ∧
  (∀ (d : List Byte) (k j : Nat), k < d.length → j < 8 → crc16 (flipBit d k j) ≠ crc16 d) ∧
  ∀ (n k j : Nat), k < n → j < 8 → crc0 (flipBit (List.replicate n 0) k j) ≠ 0

/-! ## The generator -/

/-- R104: `CRC_INIT` completes in every state, writes `GCRC` only, is idempotent, changes nothing right
after reset, and applies before a `CRC_BYTE` of the same edge. -/
def Obligations.CrcInitRestartsGenerator : Prop :=
  (∀ d : Byte, decode (opWord 0x2 d) = .crcInit) ∧ encode .crcInit = 0x200 ∧
  (∀ s : State, exec .crcInit s = .next { s with gcrc := 0xFFFF }) ∧
  (∀ s : State, runInstrs [.crcInit, .crcInit] s = exec .crcInit s) ∧
  exec .crcInit State.reset = .next State.reset ∧
  ∀ (s : State) (b : Byte),
    s.inputs = [.edge { crcInit := true, crcValid := true, crcData := b }] →
    ∃ t, step s = .next t ∧ t.gcrc = crcUpdate 0xFFFF b

/-- R105: `CRC_BYTE` completes in every state and writes `GCRC` only; a message absorbed after
`CRC_INIT` leaves its `crc16`. -/
def Obligations.CrcByteAbsorbsByte : Prop :=
  (∀ b : Byte, decode (opWord 0x3 b) = .crcByte b ∧ encode (.crcByte b) = opWord 0x3 b) ∧
  (∀ (s : State) (b : Byte), exec (.crcByte b) s = .next { s with gcrc := crcUpdate s.gcrc b }) ∧
  (∀ (s : State) (d : List Byte),
    runInstrs (.crcInit :: d.map .crcByte) s = .next { s with gcrc := crc16 d }) ∧
  crcUpdate 0x0000 0x00 = 0x0000 ∧ crcUpdate 0xFFFF 0xFF = 0xFF00 ∧ crcUpdate 0xFFFF 0x01 = 0xF1D1

/-! ## The parser, state by state -/

/-- R142: `RX_BYTE` in AwaitHeader1. -/
def Obligations.RxByteInAwaitHeader1 : Prop :=
  ∀ (b : Byte) (s : State), s.pst = 0 →
    exec (.rxByte b) s = .next { s with
      pst := if b = 0x47 then 1 else 0
      rout := .needMore, rxOutValid := true, obs := s.obs ++ [.rx .needMore none] }

/-- R143: `RX_BYTE` in AwaitHeader2; the rejected byte is not tested again, even when it is 0x47. -/
def Obligations.RxByteInAwaitHeader2 : Prop :=
  ∀ (b : Byte) (s : State), s.pst = 1 →
    exec (.rxByte b) s = .next { s with
      pst := if b = 0x54 then 2 else 0
      rout := .needMore, rxOutValid := true, obs := s.obs ++ [.rx .needMore none] }

/-- R144: `RX_BYTE` in AwaitLength; the oversize branch is reached by no byte. -/
def Obligations.RxByteInAwaitLength : Prop :=
  ∀ (b : Byte) (s : State), s.pst = 2 →
    exec (.rxByte b) s = .next { s with
      plen := b, pcnt := 0, pst := if b = 0 then 4 else 3
      rout := .needMore, rxOutValid := true, obs := s.obs ++ [.rx .needMore none] }

/-- R145: `RX_BYTE` in AwaitPayload stores at `PBUF[PCNT]` and nowhere else. -/
def Obligations.RxByteInAwaitPayload : Prop :=
  ∀ (b : Byte) (s : State), s.pst = 3 → s.pcnt.toNat < s.plen.toNat →
    ∃ t, exec (.rxByte b) s = .next t ∧
      t = { s with
        pbuf := t.pbuf, pcnt := s.pcnt + 1, pst := if s.pcnt + 1 = s.plen then 4 else 3
        rout := .needMore, rxOutValid := true, obs := s.obs ++ [.rx .needMore none] } ∧
      t.byteAt .pbuf s.pcnt.toNat = b ∧
      ∀ i, i ≠ s.pcnt.toNat → t.byteAt .pbuf i = s.byteAt .pbuf i

/-- R146: `RX_BYTE` in AwaitCrcHi. -/
def Obligations.RxByteInAwaitCrcHi : Prop :=
  ∀ (b : Byte) (s : State), s.pst = 4 →
    exec (.rxByte b) s = .next { s with
      pcrch := b, pst := 5
      rout := .needMore, rxOutValid := true, obs := s.obs ++ [.rx .needMore none] }

/-- R147: `RX_BYTE` in AwaitCrcLo: on a match the payload goes to `RBUF[0..PLEN)` and nowhere else; on a
mismatch nothing of the result changes. -/
def Obligations.RxByteInAwaitCrcLo : Prop :=
  ∀ (b : Byte) (s : State), s.pst = 5 →
    (s.pcrch ++ b = crc16 (s.prefixOf .pbuf s.plen.toNat) →
      ∃ t, exec (.rxByte b) s = .next t ∧
        t = { s with
          pst := 0, plen := 0, pcnt := 0, pcrch := 0
          rbuf := t.rbuf, rlen := s.plen, rvalid := true
          rout := .complete, rxOutValid := true
          obs := s.obs ++ [.rx .complete (some (s.prefixOf .pbuf s.plen.toNat))] } ∧
        (∀ i, i < s.plen.toNat → t.byteAt .rbuf i = s.byteAt .pbuf i) ∧
        ∀ i, s.plen.toNat ≤ i → t.byteAt .rbuf i = s.byteAt .rbuf i) ∧
    (s.pcrch ++ b ≠ crc16 (s.prefixOf .pbuf s.plen.toNat) →
      exec (.rxByte b) s = .next { s with
        pst := 0, plen := 0, pcnt := 0, pcrch := 0
        rout := .resync, rxOutValid := true, obs := s.obs ++ [.rx .resync none] })

/-- R141: every terminal outcome leaves the parser cleared, and `ParserClear` touches nothing else. -/
def Obligations.TerminalOutcomeClearsParser : Prop :=
  (∀ s : State, s.parserClear = { s with pst := 0, plen := 0, pcnt := 0, pcrch := 0 }) ∧
  ∀ (b : Byte) (s t : State), exec (.rxByte b) s = .next t → t.rout = .resync ∨ t.rout = .complete →
    t.pst = 0 ∧ t.plen = 0 ∧ t.pcnt = 0 ∧ t.pcrch = 0

/-- R150: inside a frame's payload and CRC no byte is taken for a header. -/
def Obligations.NoHeaderScanInsideFrame : Prop :=
  ∀ (b : Byte) (s t : State), 3 ≤ s.pst.toNat → exec (.rxByte b) s = .next t → t.pst ≠ 1 ∧ t.pst ≠ 2

/-- R20, R107: an `RX_BYTE` leaves the generator, the builder, the other strobe and the model's inputs
alone, stores to `PBUF` only at `PCNT` and only in AwaitPayload, and to the result only on `COMPLETE`. -/
def Obligations.RxByteFrame : Prop :=
  ∀ (b : Byte) (s t : State), exec (.rxByte b) s = .next t →
    SameGenerator s t ∧ SameBuilder s t ∧ t.txStatusValid = s.txStatusValid ∧
    t.inputs = s.inputs ∧ t.draws = s.draws ∧
    (∀ i, t.byteAt .tbuf i = s.byteAt .tbuf i) ∧
    (s.pst ≠ 3 → ∀ i, t.byteAt .pbuf i = s.byteAt .pbuf i) ∧
    (s.pst = 3 → ∀ i, i ≠ s.pcnt.toNat → t.byteAt .pbuf i = s.byteAt .pbuf i) ∧
    (t.rout ≠ .complete → t.rlen = s.rlen ∧ t.rvalid = s.rvalid ∧
      ∀ i, t.byteAt .rbuf i = s.byteAt .rbuf i)

/-! ## The parser, over streams -/

/-- R149, R38: on the registers `RX_BYTE` is the transition table: it answers a next state, whose
abstract state, outcome, observation and result are the table's. -/
def Obligations.RxByteRefinesTransitionTable : Prop :=
  ∀ (b : Byte) (s : State) (ps : ParserState), Invariant s → s.parserView = some ps →
    ∃ t, exec (.rxByte b) s = .next t ∧
      t.parserView = some (feedAbstract ps b).1 ∧
      t.rout = (feedAbstract ps b).2.register ∧
      t.rxOutValid = true ∧
      t.obs = s.obs ++ [.rx (feedAbstract ps b).2.register (feedAbstract ps b).2.payload] ∧
      t.resultView = (feedAbstract ps b).2.payload.or s.resultView

/-- R38: the sum type is equivalent to the registers: a state with the invariant has an abstract state
within the rule's lengths, every abstract state within them is that of such a state, and the transition
table (R149) stays within them. -/
def Obligations.SumTypeEquivalentToRegisters : Prop :=
  (∀ s : State, Invariant s → ∃ ps, s.parserView = some ps ∧ ps.lengthsOk = true) ∧
  (∀ ps : ParserState, ps.lengthsOk = true → ∃ s, Invariant s ∧ s.parserView = some ps) ∧
  ∀ (ps : ParserState) (b : Byte), ps.lengthsOk = true → (feedAbstract ps b).1.lengthsOk = true

/-- R152: every `RX_BYTE` completes in one step, and the accumulator never holds more than 255 bytes. -/
def Obligations.RxByteCompletesInBoundedStorage : Prop :=
  ∀ (b : Byte) (s : State), Invariant s →
    ∃ t, exec (.rxByte b) s = .next t ∧ t.pbuf.length ≤ 255 ∧ t.pcnt.toNat ≤ t.plen.toNat

/-- R126: the frame that `build_frame` gives, fed to a parser in AwaitHeader1, completes with its payload
on its last byte and gives `NEED_MORE` before. -/
def Obligations.BuiltFrameIsReceived : Prop :=
  ∀ (s : State) (p : List Byte), s.pst = 0 → 1 ≤ p.length → p.length ≤ 255 →
    buildFrame p = .frame (frameOf p) ∧
    ∃ t, runInstrs (rxBytes (frameOf p)) s = .next t ∧
      t.obs = s.obs ++ needMoreObs (p.length + 4) ++ [.rx .complete (some p)] ∧
      t.pst = 0 ∧ t.rout = .complete ∧ t.resultView = some p

/-- R66, R144, R147: the parser accepts the zero-length frame `47 54 00 FF FF` (the builder does not
build it), with the empty payload. -/
def Obligations.ZeroLengthFrameIsReceived : Prop :=
  frameOf [] = [0x47, 0x54, 0x00, 0xFF, 0xFF] ∧ buildFrame [] = .emptyPayload ∧
  ∀ s : State, s.pst = 0 →
    ∃ t, runInstrs (rxBytes [0x47, 0x54, 0x00, 0xFF, 0xFF]) s = .next t ∧
      t.obs = s.obs ++ needMoreObs 4 ++ [.rx .complete (some [])] ∧
      t.pst = 0 ∧ t.rvalid = true ∧ t.rlen = 0

/-- R155, item 1: a single flipped bit in the payload or CRC bytes of a valid frame gives `RESYNC` on
its last byte and no `COMPLETE`, keeps the result, and a valid frame after it completes. -/
def Obligations.SingleBitCorruptionResyncs : Prop :=
  ∀ (s : State) (p q : List Byte) (k j : Nat), s.pst = 0 → p.length ≤ 255 → q.length ≤ 255 →
    3 ≤ k → k < (frameOf p).length → j < 8 →
    ∃ t u, runInstrs (rxBytes (flipBit (frameOf p) k j)) s = .next t ∧
      t.obs = s.obs ++ needMoreObs (p.length + 4) ++ [.rx .resync none] ∧
      t.pst = 0 ∧ t.resultView = s.resultView ∧
      runInstrs (rxBytes (frameOf q)) t = .next u ∧
      u.obs = t.obs ++ needMoreObs (q.length + 4) ++ [.rx .complete (some q)]

/-- R147, R149, R66: what is accepted is a frame: when a stream fed from AwaitHeader1 ends with
`COMPLETE`, its last bytes are the frame of the payload it carries. -/
def Obligations.CompletedPayloadWasFramed : Prop :=
  ∀ (s t : State) (bs p : List Byte), s.pst = 0 → bs ≠ [] → runInstrs (rxBytes bs) s = .next t →
    t.obs.getLast? = some (.rx .complete (some p)) → ∃ pre, p.length ≤ 255 ∧ bs = pre ++ frameOf p

/-- R154: a header preceded by a stray 0x47 is lost. -/
def Obligations.StrayHeaderByteLosesFrame : Prop :=
  ∀ s : State, s.pst = 0 →
    ∃ t, runInstrs (rxBytes [0x47, 0x47, 0x54, 0x01, 0x01, 0xF1, 0xD1]) s = .next t ∧
      t.obs = s.obs ++ needMoreObs 7 ∧ t.pst = 0

/-- R236: after a terminal outcome the result stays for at least the next four received bytes. -/
def Obligations.ResultKeptForFourBytes : Prop :=
  ∀ (s t : State) (bs : List Byte), s.pst = 0 → bs.length ≤ 4 → runInstrs (rxBytes bs) s = .next t →
    t.rlen = s.rlen ∧ t.rvalid = s.rvalid ∧ ∀ i, t.byteAt .rbuf i = s.byteAt .rbuf i

/-! ## The builder -/

/-- R120: `build_frame`. -/
def Obligations.BuildFrameGivesFrameOrError : Prop :=
  ∀ p : List Byte,
    (255 < p.length → buildFrame p = .payloadTooLarge) ∧
    (p.length = 0 → buildFrame p = .emptyPayload) ∧
    (1 ≤ p.length → p.length ≤ 255 → ∃ f, buildFrame p = .frame f ∧
      f = [0x47, 0x54, BitVec.ofNat 8 p.length] ++ p ++
        [(crc16 p).extractLsb' 8 8, (crc16 p).extractLsb' 0 8])

/-- R66: the bytes of a frame, offset by offset. -/
def Obligations.FrameLayoutByOffset : Prop :=
  ∀ p : List Byte, p.length ≤ 255 →
    (frameOf p).length = p.length + 5 ∧
    (frameOf p)[0]? = some 0x47 ∧ (frameOf p)[1]? = some 0x54 ∧
    (∃ n : Byte, (frameOf p)[2]? = some n ∧ n.toNat = p.length) ∧
    (∀ i, i < p.length → (frameOf p)[3 + i]? = p[i]?) ∧
    (frameOf p)[3 + p.length]? = some ((crc16 p).extractLsb' 8 8) ∧
    (frameOf p)[4 + p.length]? = some ((crc16 p).extractLsb' 0 8)

/-- R122: `TX_PUSH`. No port offers it accepted unless `tx_ready = 1`; then it stores at `TBUF[TCNT]` and
nowhere else, or saturates. -/
def Obligations.TxPushAppendsOrSaturates : Prop :=
  ∀ (b : Byte) (s : State),
    decode (opWord 0x4 b) = .txPush b ∧ encode (.txPush b) = opWord 0x4 b ∧
    (s.txq = [] → s.tcnt.toNat ≤ 254 → ∃ t, exec (.txPush b) s = .next t ∧
      t = { s with tbuf := t.tbuf, tcnt := s.tcnt + 1 } ∧ t.tcnt.toNat = s.tcnt.toNat + 1 ∧
      t.byteAt .tbuf s.tcnt.toNat = b ∧
      ∀ i, i ≠ s.tcnt.toNat → t.byteAt .tbuf i = s.byteAt .tbuf i) ∧
    (s.txq = [] → s.tcnt.toNat = 255 → exec (.txPush b) s = .next { s with tcnt := 256 }) ∧
    (s.txq = [] → s.tcnt.toNat = 256 → exec (.txPush b) s = .next s) ∧
    (s.txq ≠ [] → ∀ (p : InPorts) (w : OpWord), w ∈ acceptedWords p s → decode w ≠ .txPush b)

/-- R123: `TX_BUILD`. No port offers it accepted unless `tx_ready = 1`. After an `OK` build, and once its
frame has left, another gives `EMPTY_PAYLOAD`. -/
def Obligations.TxBuildFramesPushedPayload : Prop :=
  (∀ d : Byte, decode (opWord 0x5 d) = .txBuild) ∧ encode .txBuild = 0x500 ∧
  ∀ s : State,
    (s.txq = [] → s.tcnt.toNat = 256 → exec .txBuild s = .next { s with
      tstat := .payloadTooLarge, txStatusValid := true, tcnt := 0
      obs := s.obs ++ [.tx .payloadTooLarge none] }) ∧
    (s.txq = [] → s.tcnt.toNat = 0 → exec .txBuild s = .next { s with
      tstat := .emptyPayload, txStatusValid := true, tcnt := 0
      obs := s.obs ++ [.tx .emptyPayload none] }) ∧
    (s.txq = [] → 1 ≤ s.tcnt.toNat → s.tcnt.toNat ≤ 255 → ∃ f,
      buildFrame (s.prefixOf .tbuf s.tcnt.toNat) = .frame f ∧
      exec .txBuild s = .next { s with
        txq := f, tstat := .ok, txStatusValid := true, tcnt := 0
        obs := s.obs ++ [.tx .ok (some f)] }) ∧
    (s.txq ≠ [] → ∀ (p : InPorts) (w : OpWord), w ∈ acceptedWords p s → decode w ≠ .txBuild) ∧
    (∀ t, s.txq = [] → 1 ≤ s.tcnt.toNat → s.tcnt.toNat ≤ 255 → exec .txBuild s = .next t →
      t.tstat = .ok ∧ ∃ u, exec .txBuild { t with txq := [] } = .next u ∧ u.tstat = .emptyPayload)

/-- R238, R214: `TX_PUSH` and `TX_BUILD` offered while `tx_ready = 0` have no effect. The rules speak of
the ports; that the instruction itself is turned away so is the model's choice (log 3). -/
def Obligations.TxOperationsWaitWhileBusy : Prop :=
  ∀ (b : Byte) (s : State), s.txq ≠ [] → exec (.txPush b) s = .next s ∧ exec .txBuild s = .next s

/-- R125: pushes and then a build give what `build_frame` gives for the bytes pushed. -/
def Obligations.PushSequenceThenBuild : Prop :=
  (State.reset.tcnt = 0 ∧ State.reset.txq = []) ∧
  (∀ s t : State, s.txq = [] → exec .txBuild s = .next t → t.tcnt = 0) ∧
  (∀ (s : State) (p : List Byte), s.tcnt = 0 → s.txq = [] →
    ∃ t, runInstrs (txFrame p) s = .next t ∧ t.tcnt = 0 ∧
      (1 ≤ p.length → p.length ≤ 255 → buildFrame p = .frame (frameOf p) ∧ t.tstat = .ok ∧
        t.txq = frameOf p ∧ t.obs = s.obs ++ [.tx .ok (some (frameOf p))]) ∧
      (p.length = 0 → t.tstat = .emptyPayload ∧ t.txq = [] ∧ t.obs = s.obs ++ [.tx .emptyPayload none]) ∧
      (256 ≤ p.length → t.tstat = .payloadTooLarge ∧ t.txq = [] ∧
        t.obs = s.obs ++ [.tx .payloadTooLarge none])) ∧
  ∀ p : List Byte, p.length = 13 → ∃ f, buildFrame p = .frame f ∧ f.length = 18

/-- R20, R107, R122, R123: what the builder's instructions leave alone; the bytes of `TBUF` too, but for
the one that `TX_PUSH` stores. -/
def Obligations.TxOperationsFrame : Prop :=
  (∀ (b : Byte) (s t : State), exec (.txPush b) s = .next t →
    SameParser s t ∧ SameResult s t ∧ SameGenerator s t ∧ t.tstat = s.tstat ∧ t.txq = s.txq ∧
    t.txout = s.txout ∧ t.rxOutValid = s.rxOutValid ∧ t.txStatusValid = s.txStatusValid ∧
    t.obs = s.obs ∧ t.inputs = s.inputs ∧ t.draws = s.draws ∧
    ∀ i, i ≠ s.tcnt.toNat → t.byteAt .tbuf i = s.byteAt .tbuf i) ∧
  (∀ s t : State, exec .txBuild s = .next t →
    SameParser s t ∧ SameResult s t ∧ SameGenerator s t ∧ t.txout = s.txout ∧
    t.rxOutValid = s.rxOutValid ∧ t.inputs = s.inputs ∧ t.draws = s.draws ∧
    ∀ sp i, t.byteAt sp i = s.byteAt sp i)

/-! ## No operation, reserved words, refusals -/

/-- R180: `NOP` completes in every state and changes nothing; any number of them inserted anywhere
changes no result. -/
def Obligations.NopChangesNothing : Prop :=
  (∀ d : Byte, decode (opWord 0x0 d) = .nop) ∧ encode .nop = 0x000 ∧
  (∀ s : State, exec .nop s = .next s) ∧
  (∀ (p : InPorts) (s : State), p.rxValid = false → p.crcInit = false → p.crcValid = false →
    p.txPush = false → p.txBuild = false → (acceptedWords p s).map decode = [.nop]) ∧
  ∀ (n : Nat) (is js : List Instr) (s : State),
    runInstrs (is ++ List.replicate n .nop ++ js) s = runInstrs (is ++ js) s

/-- R181: a reserved word is refused, with any data, and no port combination produces one. -/
def Obligations.ReservedWordsAreRefused : Prop :=
  (∀ (op : BitVec 4) (d : Byte) (s : State), 6 ≤ op.toNat →
    exec (decode (opWord op d)) s = .refused (.reservedOperation op)) ∧
  (∀ (op : BitVec 4) (d : Byte) (s : State) (rest : List Input), 6 ≤ op.toNat →
    s.inputs = .word (opWord op d) :: rest → step s = .refused (.reservedOperation op)) ∧
  ∀ (p : InPorts) (s : State) (w : OpWord), w ∈ acceptedWords p s → (opField w).toNat < 6

/-- R181, constructor by constructor: each reserved instruction stops with its own op value. -/
def Obligations.ReservedInstructionsStop : Prop :=
  ∀ s : State,
    exec .reserved6 s = .refused (.reservedOperation 0x6) ∧
    exec .reserved7 s = .refused (.reservedOperation 0x7) ∧
    exec .reserved8 s = .refused (.reservedOperation 0x8) ∧
    exec .reserved9 s = .refused (.reservedOperation 0x9) ∧
    exec .reservedA s = .refused (.reservedOperation 0xA) ∧
    exec .reservedB s = .refused (.reservedOperation 0xB) ∧
    exec .reservedC s = .refused (.reservedOperation 0xC) ∧
    exec .reservedD s = .refused (.reservedOperation 0xD) ∧
    exec .reservedE s = .refused (.reservedOperation 0xE) ∧
    exec .reservedF s = .refused (.reservedOperation 0xF)

/-- R203: there are two refusals; `PST` 6 and 7 refuse an `RX_BYTE`, and no operation writes them. -/
def Obligations.OnlyTwoRefusals : Prop :=
  (∀ (b : Byte) (s : State), s.pst = 6 ∨ s.pst = 7 →
    exec (.rxByte b) s = .refused .illegalParserState) ∧
  (∀ (i : Instr) (s : State) (r : Refusal), exec i s = .refused r →
    (i.wf = false ∧ r = .reservedOperation (opcodeOf i)) ∨
    (r = .illegalParserState ∧ (s.pst = 6 ∨ s.pst = 7) ∧ ∃ b, i = .rxByte b)) ∧
  ∀ (i : Instr) (s t : State), s.pst ≠ 6 → s.pst ≠ 7 → exec i s = .next t → t.pst ≠ 6 ∧ t.pst ≠ 7

/-! ## Independence and order -/

/-- R20: each register group is written by its own function's operations only. -/
def Obligations.GroupsWrittenByOwnFunction : Prop :=
  ∀ (i : Instr) (s t : State), exec i s = .next t →
    (groupOf i ≠ .parser → SameParser s t ∧ SameResult s t) ∧
    (groupOf i ≠ .generator → SameGenerator s t) ∧
    (groupOf i ≠ .builder → SameBuilder s t)

/-- R85, R68: operations of different functions commute: the state after them is the same either way,
but for the order of the model's record of their observations (log 8); and wholly the same if one of the
two has no observation. -/
def Obligations.DifferentFunctionsCommute : Prop :=
  ∀ (i j : Instr) (s t : State), groupOf i ≠ groupOf j → runInstrs [i, j] s = .next t →
    ∃ u, runInstrs [j, i] s = .next u ∧ { u with obs := t.obs } = t ∧ u.obs.Perm t.obs ∧
      (hasObservation i = false ∨ hasObservation j = false → u = t)

/-- R28, R33: `ROUT` is written by every `RX_BYTE` and by no other operation, `TSTAT` by `TX_BUILD`
only; their codes. -/
def Obligations.StatusRegistersWrittenByOwnOperation : Prop :=
  (∀ (i : Instr) (s t : State), exec i s = .next t → groupOf i ≠ .parser → t.rout = s.rout) ∧
  (∀ (b : Byte) (s t : State), exec (.rxByte b) s = .next t →
    t.rout = .needMore ∨ t.rout = .resync ∨ t.rout = .complete) ∧
  (∀ (i : Instr) (s t : State), exec i s = .next t → i ≠ .txBuild → t.tstat = s.tstat) ∧
  (∀ s t : State, s.txq = [] → exec .txBuild s = .next t →
    t.tstat = .ok ∨ t.tstat = .payloadTooLarge ∨ t.tstat = .emptyPayload) ∧
  State.reset.rout = .none ∧ State.reset.tstat = .none ∧
  RxOutcome.code .none = 0 ∧ RxOutcome.code .needMore = 1 ∧ RxOutcome.code .resync = 2 ∧
  RxOutcome.code .complete = 3 ∧ TxStatus.code .none = 0 ∧ TxStatus.code .ok = 1 ∧
  TxStatus.code .payloadTooLarge = 2 ∧ TxStatus.code .emptyPayload = 3

/-! ## Steps, ports and the clock -/

/-- R11, R68, R124: a step with an operation word pending runs the decoded instruction on the state with
the word taken, the strobes fallen and the draw counter advanced. For `TX_PUSH` and `TX_BUILD` it sends
what is queued before and after (the model's transaction level, logs 1 and 2). -/
def Obligations.StepRunsDecodedWord : Prop :=
  ∀ (s s' : State) (w : OpWord) (rest : List Input), s.inputs = .word w :: rest →
    s' = { s with inputs := rest, rxOutValid := false, txStatusValid := false, draws := s.draws + 1 } →
    ((∀ b, decode w ≠ .txPush b) → decode w ≠ .txBuild → step s = exec (decode w) s') ∧
    ((∃ b, decode w = .txPush b) ∨ decode w = .txBuild →
      (∀ t, exec (decode w) { s' with txq := [], txout := s.txout ++ s.txq } = .next t →
        step s = .next { t with txq := [], txout := t.txout ++ t.txq }) ∧
      ∀ f, exec (decode w) { s' with txq := [], txout := s.txout ++ s.txq } = .fault f →
        step s = .fault f)

/-- How the host places an instruction: the next step runs exactly it, and the pending inputs stay (the
model's own, log 1). -/
def Obligations.PlacedWordIsNextStep : Prop :=
  ∀ (i : Instr) (s : State),
    step (s.withFetchWord 16 (encode i).toNat) = transact i s.tick ∧
    ∀ t, transact i s.tick = .next t → t.inputs = s.inputs

/-- With no input pending the ports are quiet: an idle edge, at which only the strobes fall (R84, R180; that
the run goes on so is the model's choice, log 1). -/
def Obligations.StepWithoutInputIsIdle : Prop :=
  ∀ s : State, s.inputs = [] →
    step s = .next { s with rxOutValid := false, txStatusValid := false, draws := s.draws + 1 }

/-- R230: an edge with `rst = 1` gives every register its value of R43, empties `TXQ`, lowers the strobes
and accepts no event, whatever the state and the other ports are: no observation is added to the record,
and the step takes this edge and no other input. That the record and the inputs behind the edge outlive
the reset is the model's choice (logs 8 and 10). -/
def Obligations.ResetEdgeRestoresResetValues : Prop :=
  ∀ (s : State) (p : InPorts) (rest : List Input), s.inputs = .edge p :: rest → p.rst = true →
    ∃ t, step s = .next t ∧
      t.pst = 0 ∧ t.plen = 0 ∧ t.pcnt = 0 ∧ t.pcrch = 0 ∧ t.rout = .none ∧ t.rvalid = false ∧
      t.rlen = 0 ∧ t.gcrc = 0xFFFF ∧ t.tcnt = 0 ∧ t.tstat = .none ∧ t.txq = [] ∧ t.txout = [] ∧
      t.rxOutValid = false ∧ t.txStatusValid = false ∧ t.obs = s.obs ∧ t.inputs = rest

/-- R84, R85: the events accepted at an edge with `rst = 0`, as instructions, in their order, after the
output handshake of that edge (R124). The transmit requests are accepted only if nothing was queued
BEFORE the edge: that a request at the edge whose handshake empties `TXQ` is not accepted is the model's
reading (log 4, DEDUCED). -/
def Obligations.EdgeAcceptsEventsInOrder : Prop :=
  ∀ (s : State) (p : InPorts) (rest : List Input) (is : List Instr),
    s.inputs = .edge p :: rest → p.rst = false →
    is = (if p.rxValid then [.rxByte p.rxData] else []) ++ (if p.crcInit then [.crcInit] else []) ++
      (if p.crcValid then [.crcByte p.crcData] else []) ++
      (if p.txPush = true ∧ s.txq = [] then [.txPush p.txData] else []) ++
      (if p.txBuild = true ∧ s.txq = [] then [.txBuild] else []) →
    step s = runInstrs (if is = [] then [.nop] else is)
      { s with
        inputs := rest, rxOutValid := false, txStatusValid := false, draws := s.draws + 1
        txq := if p.txOutReady then s.txq.drop 1 else s.txq
        txout := if p.txOutReady then s.txout ++ s.txq.take 1 else s.txout }

/-- R124, R84, R238: while a frame is being sent an edge accepts no transmit request, and its output
handshake moves exactly the first queued byte. That this holds at the edge at which the last byte leaves
as well is the model's reading (log 4, DEDUCED). -/
def Obligations.BusyEdgeOnlySends : Prop :=
  ∀ (s t : State) (p : InPorts) (rest : List Input) (b : Byte) (q : List Byte),
    s.inputs = .edge p :: rest → p.rst = false → s.txq = b :: q → step s = .next t →
      t.tcnt = s.tcnt ∧ t.tbuf = s.tbuf ∧ t.tstat = s.tstat ∧ t.txStatusValid = false ∧
      (p.txOutReady = true → t.txq = q ∧ t.txout = s.txout ++ [b]) ∧
      (p.txOutReady = false → t.txq = b :: q ∧ t.txout = s.txout)

/-- R124, R242: a queued frame leaves byte by byte, in order, in as many ready edges as it has bytes,
and no sooner. -/
def Obligations.ReadyEdgesDrainQueueInOrder : Prop :=
  ∀ (s : State) (n : Nat), n ≤ s.txq.length →
    s.inputs = List.replicate n (.edge { txOutReady := true }) →
    ∃ t : State, core.run n s = .next t ∧ t.txq = s.txq.drop n ∧ t.txout = s.txout ++ s.txq.take n ∧
      t.inputs = [] ∧ SameParser s t ∧ SameResult s t ∧ SameGenerator s t ∧ t.tcnt = s.tcnt

/-- R80, R237: each strobe is 1 for exactly the cycle after an edge that accepted its event. That a build
is accepted by `TXQ` before the edge, the edge at which the last byte leaves included, is the model's
reading (log 4, DEDUCED), and so is that the strobes are fields of the state (log 11, DEDUCED). -/
def Obligations.StrobesPulseForOneCycle : Prop :=
  ∀ (s t : State) (p : InPorts) (rest : List Input), s.inputs = .edge p :: rest → step s = .next t →
    t.rxOutValid = (p.rxValid && !p.rst) ∧
    t.txStatusValid = (p.txBuild && decide (s.txq = []) && !p.rst)

/-- R61: a valid index reads the result, has no side effect, and reads the same byte after every step
that is no reset and observes no `COMPLETE`. -/
def Obligations.ResultReadsAreStable : Prop :=
  ∀ (s t : State) (a : Byte), s.rvalid = true → a.toNat < s.rlen.toNat →
    (outPorts s a).rbData = s.byteAt .rbuf a.toNat ∧
    (step s = .next t → s.resetNext = false →
      (∀ p, Obs.rx .complete p ∉ observedBetween s t) →
      (outPorts t a).rbData = (outPorts s a).rbData)

/-- R80, R40, R106: in every state each output port shows its register; `tx_out_valid` and `tx_ready` tell
whether `TXQ` holds a byte, and `tx_out_data` is its first byte while there is one (R124). -/
def Obligations.PortsShowRegisters : Prop :=
  ∀ (s : State) (a : Byte),
    (outPorts s a).rxOutValid = s.rxOutValid ∧ (outPorts s a).rxOutcome = s.rout.code ∧
    (outPorts s a).rxLen = s.rlen ∧ (outPorts s a).rbValid = s.rvalid ∧ (outPorts s a).stPst = s.pst ∧
    (outPorts s a).crcValue = s.gcrc ∧ (outPorts s a).txStatus = s.tstat.code ∧
    (outPorts s a).txStatusValid = s.txStatusValid ∧ (outPorts s a).txCount = s.tcnt ∧
    ((outPorts s a).txOutValid = true ↔ s.txq ≠ []) ∧ ((outPorts s a).txReady = true ↔ s.txq = []) ∧
    (∀ (b : Byte) (q : List Byte), s.txq = b :: q → (outPorts s a).txOutData = b) ∧
    (s.rvalid = true → a.toNat < s.rlen.toNat → (outPorts s a).rbData = s.byteAt .rbuf a.toNat)

/-- R233: what the output ports show after reset, but for the two bytes the spec leaves open. -/
def Obligations.PortsAfterReset : Prop :=
  ∀ a : Byte, outPorts State.reset a =
    { rxOutValid := false, rxOutcome := 0, rxLen := 0, rbValid := false
      rbData := (outPorts State.reset a).rbData, stPst := 0, crcValue := 0xFFFF, txReady := true
      txStatus := 0, txStatusValid := false, txCount := 0, txOutValid := false
      txOutData := (outPorts State.reset a).txOutData }

/-- R35, R124: over every step that is no reset, the bytes sent and queued grow by exactly the frames
built in it, in frame order, at transaction level and at cycle level alike. -/
def Obligations.TransmittedStreamIsFramesInBuildOrder : Prop :=
  ∀ s t : State, s.resetNext = false → step s = .next t →
    s.obs <+: t.obs ∧ t.transmitted = s.transmitted ++ framesIn (observedBetween s t)

/-! ## The machine -/

/-- The invariant of Safety.lean (R25, R26, R29, R31, R32, R34, R60) is kept by every step. -/
def Obligations.InvariantKeptByStep : Prop :=
  ∀ s t : State, Invariant s → step s = .next t → Invariant t

/-- The invariant holds at reset. -/
def Obligations.InvariantAtReset : Prop := Invariant State.reset

/-- R200, R203: from a state with the invariant a step goes on, unless the pending input is a reserved
word given directly; in particular no step faults. -/
def Obligations.StepGoesOnUnlessReserved : Prop :=
  ∀ s : State, Invariant s →
    (∃ t, step s = .next t) ∨
    ∃ w rest, s.inputs = .word w :: rest ∧ 6 ≤ (opField w).toNat ∧
      step s = .refused (.reservedOperation (opField w))
end

