-- ==== Sys2Proof/Laws/State.lean ====
section
/-!
SUPPORT. One lemma per field per update, each true by rfl, so that no proof unfolds a record update.
-/

namespace Sys2Proof.Machine

variable (s : State)

/-! ## `State.goTo` -/

@[simp] theorem State.goTo_pst (ph : Phase) : (s.goTo ph).pst = ph.code := rfl
@[simp] theorem State.goTo_plen (ph : Phase) : (s.goTo ph).plen = s.plen := rfl
@[simp] theorem State.goTo_pcnt (ph : Phase) : (s.goTo ph).pcnt = s.pcnt := rfl
@[simp] theorem State.goTo_pbuf (ph : Phase) : (s.goTo ph).pbuf = s.pbuf := rfl
@[simp] theorem State.goTo_pcrch (ph : Phase) : (s.goTo ph).pcrch = s.pcrch := rfl
@[simp] theorem State.goTo_rout (ph : Phase) : (s.goTo ph).rout = s.rout := rfl
@[simp] theorem State.goTo_rlen (ph : Phase) : (s.goTo ph).rlen = s.rlen := rfl
@[simp] theorem State.goTo_rbuf (ph : Phase) : (s.goTo ph).rbuf = s.rbuf := rfl
@[simp] theorem State.goTo_rvalid (ph : Phase) : (s.goTo ph).rvalid = s.rvalid := rfl
@[simp] theorem State.goTo_gcrc (ph : Phase) : (s.goTo ph).gcrc = s.gcrc := rfl
@[simp] theorem State.goTo_tcnt (ph : Phase) : (s.goTo ph).tcnt = s.tcnt := rfl
@[simp] theorem State.goTo_tbuf (ph : Phase) : (s.goTo ph).tbuf = s.tbuf := rfl
@[simp] theorem State.goTo_tstat (ph : Phase) : (s.goTo ph).tstat = s.tstat := rfl
@[simp] theorem State.goTo_txq (ph : Phase) : (s.goTo ph).txq = s.txq := rfl
@[simp] theorem State.goTo_txout (ph : Phase) : (s.goTo ph).txout = s.txout := rfl
@[simp] theorem State.goTo_rxOutValid (ph : Phase) : (s.goTo ph).rxOutValid = s.rxOutValid := rfl
@[simp] theorem State.goTo_txStatusValid (ph : Phase) : (s.goTo ph).txStatusValid = s.txStatusValid := rfl
@[simp] theorem State.goTo_inputs (ph : Phase) : (s.goTo ph).inputs = s.inputs := rfl
@[simp] theorem State.goTo_obs (ph : Phase) : (s.goTo ph).obs = s.obs := rfl
@[simp] theorem State.goTo_draws (ph : Phase) : (s.goTo ph).draws = s.draws := rfl

/-! ## `State.parserClear` -/

@[simp] theorem State.parserClear_pst : s.parserClear.pst = Phase.code .h1 := rfl
@[simp] theorem State.parserClear_plen : s.parserClear.plen = 0 := rfl
@[simp] theorem State.parserClear_pcnt : s.parserClear.pcnt = 0 := rfl
@[simp] theorem State.parserClear_pbuf : s.parserClear.pbuf = s.pbuf := rfl
@[simp] theorem State.parserClear_pcrch : s.parserClear.pcrch = 0 := rfl
@[simp] theorem State.parserClear_rout : s.parserClear.rout = s.rout := rfl
@[simp] theorem State.parserClear_rlen : s.parserClear.rlen = s.rlen := rfl
@[simp] theorem State.parserClear_rbuf : s.parserClear.rbuf = s.rbuf := rfl
@[simp] theorem State.parserClear_rvalid : s.parserClear.rvalid = s.rvalid := rfl
@[simp] theorem State.parserClear_gcrc : s.parserClear.gcrc = s.gcrc := rfl
@[simp] theorem State.parserClear_tcnt : s.parserClear.tcnt = s.tcnt := rfl
@[simp] theorem State.parserClear_tbuf : s.parserClear.tbuf = s.tbuf := rfl
@[simp] theorem State.parserClear_tstat : s.parserClear.tstat = s.tstat := rfl
@[simp] theorem State.parserClear_txq : s.parserClear.txq = s.txq := rfl
@[simp] theorem State.parserClear_txout : s.parserClear.txout = s.txout := rfl
@[simp] theorem State.parserClear_rxOutValid : s.parserClear.rxOutValid = s.rxOutValid := rfl
@[simp] theorem State.parserClear_txStatusValid : s.parserClear.txStatusValid = s.txStatusValid := rfl
@[simp] theorem State.parserClear_inputs : s.parserClear.inputs = s.inputs := rfl
@[simp] theorem State.parserClear_obs : s.parserClear.obs = s.obs := rfl
@[simp] theorem State.parserClear_draws : s.parserClear.draws = s.draws := rfl

/-! ## `State.declareLength` -/

@[simp] theorem State.declareLength_pst (b : Byte) : (s.declareLength b).pst = s.pst := rfl
@[simp] theorem State.declareLength_plen (b : Byte) : (s.declareLength b).plen = b := rfl
@[simp] theorem State.declareLength_pcnt (b : Byte) : (s.declareLength b).pcnt = 0 := rfl
@[simp] theorem State.declareLength_pbuf (b : Byte) : (s.declareLength b).pbuf = s.pbuf := rfl
@[simp] theorem State.declareLength_pcrch (b : Byte) : (s.declareLength b).pcrch = s.pcrch := rfl
@[simp] theorem State.declareLength_rout (b : Byte) : (s.declareLength b).rout = s.rout := rfl
@[simp] theorem State.declareLength_rlen (b : Byte) : (s.declareLength b).rlen = s.rlen := rfl
@[simp] theorem State.declareLength_rbuf (b : Byte) : (s.declareLength b).rbuf = s.rbuf := rfl
@[simp] theorem State.declareLength_rvalid (b : Byte) : (s.declareLength b).rvalid = s.rvalid := rfl
@[simp] theorem State.declareLength_gcrc (b : Byte) : (s.declareLength b).gcrc = s.gcrc := rfl
@[simp] theorem State.declareLength_tcnt (b : Byte) : (s.declareLength b).tcnt = s.tcnt := rfl
@[simp] theorem State.declareLength_tbuf (b : Byte) : (s.declareLength b).tbuf = s.tbuf := rfl
@[simp] theorem State.declareLength_tstat (b : Byte) : (s.declareLength b).tstat = s.tstat := rfl
@[simp] theorem State.declareLength_txq (b : Byte) : (s.declareLength b).txq = s.txq := rfl
@[simp] theorem State.declareLength_txout (b : Byte) : (s.declareLength b).txout = s.txout := rfl
@[simp] theorem State.declareLength_rxOutValid (b : Byte) : (s.declareLength b).rxOutValid = s.rxOutValid := rfl
@[simp] theorem State.declareLength_txStatusValid (b : Byte) : (s.declareLength b).txStatusValid = s.txStatusValid := rfl
@[simp] theorem State.declareLength_inputs (b : Byte) : (s.declareLength b).inputs = s.inputs := rfl
@[simp] theorem State.declareLength_obs (b : Byte) : (s.declareLength b).obs = s.obs := rfl
@[simp] theorem State.declareLength_draws (b : Byte) : (s.declareLength b).draws = s.draws := rfl

/-! ## `State.countPayloadByte` -/

@[simp] theorem State.countPayloadByte_pst : s.countPayloadByte.pst = s.pst := rfl
@[simp] theorem State.countPayloadByte_plen : s.countPayloadByte.plen = s.plen := rfl
@[simp] theorem State.countPayloadByte_pcnt : s.countPayloadByte.pcnt = s.pcnt + 1#8 := rfl
@[simp] theorem State.countPayloadByte_pbuf : s.countPayloadByte.pbuf = s.pbuf := rfl
@[simp] theorem State.countPayloadByte_pcrch : s.countPayloadByte.pcrch = s.pcrch := rfl
@[simp] theorem State.countPayloadByte_rout : s.countPayloadByte.rout = s.rout := rfl
@[simp] theorem State.countPayloadByte_rlen : s.countPayloadByte.rlen = s.rlen := rfl
@[simp] theorem State.countPayloadByte_rbuf : s.countPayloadByte.rbuf = s.rbuf := rfl
@[simp] theorem State.countPayloadByte_rvalid : s.countPayloadByte.rvalid = s.rvalid := rfl
@[simp] theorem State.countPayloadByte_gcrc : s.countPayloadByte.gcrc = s.gcrc := rfl
@[simp] theorem State.countPayloadByte_tcnt : s.countPayloadByte.tcnt = s.tcnt := rfl
@[simp] theorem State.countPayloadByte_tbuf : s.countPayloadByte.tbuf = s.tbuf := rfl
@[simp] theorem State.countPayloadByte_tstat : s.countPayloadByte.tstat = s.tstat := rfl
@[simp] theorem State.countPayloadByte_txq : s.countPayloadByte.txq = s.txq := rfl
@[simp] theorem State.countPayloadByte_txout : s.countPayloadByte.txout = s.txout := rfl
@[simp] theorem State.countPayloadByte_rxOutValid : s.countPayloadByte.rxOutValid = s.rxOutValid := rfl
@[simp] theorem State.countPayloadByte_txStatusValid : s.countPayloadByte.txStatusValid = s.txStatusValid := rfl
@[simp] theorem State.countPayloadByte_inputs : s.countPayloadByte.inputs = s.inputs := rfl
@[simp] theorem State.countPayloadByte_obs : s.countPayloadByte.obs = s.obs := rfl
@[simp] theorem State.countPayloadByte_draws : s.countPayloadByte.draws = s.draws := rfl

/-! ## `State.storeCrcHi` -/

@[simp] theorem State.storeCrcHi_pst (b : Byte) : (s.storeCrcHi b).pst = s.pst := rfl
@[simp] theorem State.storeCrcHi_plen (b : Byte) : (s.storeCrcHi b).plen = s.plen := rfl
@[simp] theorem State.storeCrcHi_pcnt (b : Byte) : (s.storeCrcHi b).pcnt = s.pcnt := rfl
@[simp] theorem State.storeCrcHi_pbuf (b : Byte) : (s.storeCrcHi b).pbuf = s.pbuf := rfl
@[simp] theorem State.storeCrcHi_pcrch (b : Byte) : (s.storeCrcHi b).pcrch = b := rfl
@[simp] theorem State.storeCrcHi_rout (b : Byte) : (s.storeCrcHi b).rout = s.rout := rfl
@[simp] theorem State.storeCrcHi_rlen (b : Byte) : (s.storeCrcHi b).rlen = s.rlen := rfl
@[simp] theorem State.storeCrcHi_rbuf (b : Byte) : (s.storeCrcHi b).rbuf = s.rbuf := rfl
@[simp] theorem State.storeCrcHi_rvalid (b : Byte) : (s.storeCrcHi b).rvalid = s.rvalid := rfl
@[simp] theorem State.storeCrcHi_gcrc (b : Byte) : (s.storeCrcHi b).gcrc = s.gcrc := rfl
@[simp] theorem State.storeCrcHi_tcnt (b : Byte) : (s.storeCrcHi b).tcnt = s.tcnt := rfl
@[simp] theorem State.storeCrcHi_tbuf (b : Byte) : (s.storeCrcHi b).tbuf = s.tbuf := rfl
@[simp] theorem State.storeCrcHi_tstat (b : Byte) : (s.storeCrcHi b).tstat = s.tstat := rfl
@[simp] theorem State.storeCrcHi_txq (b : Byte) : (s.storeCrcHi b).txq = s.txq := rfl
@[simp] theorem State.storeCrcHi_txout (b : Byte) : (s.storeCrcHi b).txout = s.txout := rfl
@[simp] theorem State.storeCrcHi_rxOutValid (b : Byte) : (s.storeCrcHi b).rxOutValid = s.rxOutValid := rfl
@[simp] theorem State.storeCrcHi_txStatusValid (b : Byte) : (s.storeCrcHi b).txStatusValid = s.txStatusValid := rfl
@[simp] theorem State.storeCrcHi_inputs (b : Byte) : (s.storeCrcHi b).inputs = s.inputs := rfl
@[simp] theorem State.storeCrcHi_obs (b : Byte) : (s.storeCrcHi b).obs = s.obs := rfl
@[simp] theorem State.storeCrcHi_draws (b : Byte) : (s.storeCrcHi b).draws = s.draws := rfl

/-! ## `State.markResult` -/

@[simp] theorem State.markResult_pst (n : Nat) : (s.markResult n).pst = s.pst := rfl
@[simp] theorem State.markResult_plen (n : Nat) : (s.markResult n).plen = s.plen := rfl
@[simp] theorem State.markResult_pcnt (n : Nat) : (s.markResult n).pcnt = s.pcnt := rfl
@[simp] theorem State.markResult_pbuf (n : Nat) : (s.markResult n).pbuf = s.pbuf := rfl
@[simp] theorem State.markResult_pcrch (n : Nat) : (s.markResult n).pcrch = s.pcrch := rfl
@[simp] theorem State.markResult_rout (n : Nat) : (s.markResult n).rout = s.rout := rfl
@[simp] theorem State.markResult_rlen (n : Nat) : (s.markResult n).rlen = lengthByte n := rfl
@[simp] theorem State.markResult_rbuf (n : Nat) : (s.markResult n).rbuf = s.rbuf := rfl
@[simp] theorem State.markResult_rvalid (n : Nat) : (s.markResult n).rvalid = true := rfl
@[simp] theorem State.markResult_gcrc (n : Nat) : (s.markResult n).gcrc = s.gcrc := rfl
@[simp] theorem State.markResult_tcnt (n : Nat) : (s.markResult n).tcnt = s.tcnt := rfl
@[simp] theorem State.markResult_tbuf (n : Nat) : (s.markResult n).tbuf = s.tbuf := rfl
@[simp] theorem State.markResult_tstat (n : Nat) : (s.markResult n).tstat = s.tstat := rfl
@[simp] theorem State.markResult_txq (n : Nat) : (s.markResult n).txq = s.txq := rfl
@[simp] theorem State.markResult_txout (n : Nat) : (s.markResult n).txout = s.txout := rfl
@[simp] theorem State.markResult_rxOutValid (n : Nat) : (s.markResult n).rxOutValid = s.rxOutValid := rfl
@[simp] theorem State.markResult_txStatusValid (n : Nat) : (s.markResult n).txStatusValid = s.txStatusValid := rfl
@[simp] theorem State.markResult_inputs (n : Nat) : (s.markResult n).inputs = s.inputs := rfl
@[simp] theorem State.markResult_obs (n : Nat) : (s.markResult n).obs = s.obs := rfl
@[simp] theorem State.markResult_draws (n : Nat) : (s.markResult n).draws = s.draws := rfl

/-! ## `State.recordOutcome` -/

@[simp] theorem State.recordOutcome_pst (o : RxOutcome) : (s.recordOutcome o).pst = s.pst := rfl
@[simp] theorem State.recordOutcome_plen (o : RxOutcome) : (s.recordOutcome o).plen = s.plen := rfl
@[simp] theorem State.recordOutcome_pcnt (o : RxOutcome) : (s.recordOutcome o).pcnt = s.pcnt := rfl
@[simp] theorem State.recordOutcome_pbuf (o : RxOutcome) : (s.recordOutcome o).pbuf = s.pbuf := rfl
@[simp] theorem State.recordOutcome_pcrch (o : RxOutcome) : (s.recordOutcome o).pcrch = s.pcrch := rfl
@[simp] theorem State.recordOutcome_rout (o : RxOutcome) : (s.recordOutcome o).rout = o := rfl
@[simp] theorem State.recordOutcome_rlen (o : RxOutcome) : (s.recordOutcome o).rlen = s.rlen := rfl
@[simp] theorem State.recordOutcome_rbuf (o : RxOutcome) : (s.recordOutcome o).rbuf = s.rbuf := rfl
@[simp] theorem State.recordOutcome_rvalid (o : RxOutcome) : (s.recordOutcome o).rvalid = s.rvalid := rfl
@[simp] theorem State.recordOutcome_gcrc (o : RxOutcome) : (s.recordOutcome o).gcrc = s.gcrc := rfl
@[simp] theorem State.recordOutcome_tcnt (o : RxOutcome) : (s.recordOutcome o).tcnt = s.tcnt := rfl
@[simp] theorem State.recordOutcome_tbuf (o : RxOutcome) : (s.recordOutcome o).tbuf = s.tbuf := rfl
@[simp] theorem State.recordOutcome_tstat (o : RxOutcome) : (s.recordOutcome o).tstat = s.tstat := rfl
@[simp] theorem State.recordOutcome_txq (o : RxOutcome) : (s.recordOutcome o).txq = s.txq := rfl
@[simp] theorem State.recordOutcome_txout (o : RxOutcome) : (s.recordOutcome o).txout = s.txout := rfl
@[simp] theorem State.recordOutcome_rxOutValid (o : RxOutcome) : (s.recordOutcome o).rxOutValid = true := rfl
@[simp] theorem State.recordOutcome_txStatusValid (o : RxOutcome) : (s.recordOutcome o).txStatusValid = s.txStatusValid := rfl
@[simp] theorem State.recordOutcome_inputs (o : RxOutcome) : (s.recordOutcome o).inputs = s.inputs := rfl
@[simp] theorem State.recordOutcome_obs (o : RxOutcome) : (s.recordOutcome o).obs = s.obs ++ [.rx o (s.outcomePayload o)] := rfl
@[simp] theorem State.recordOutcome_draws (o : RxOutcome) : (s.recordOutcome o).draws = s.draws := rfl

/-! ## `State.setGcrc` -/

@[simp] theorem State.setGcrc_pst (c : Crc) : (s.setGcrc c).pst = s.pst := rfl
@[simp] theorem State.setGcrc_plen (c : Crc) : (s.setGcrc c).plen = s.plen := rfl
@[simp] theorem State.setGcrc_pcnt (c : Crc) : (s.setGcrc c).pcnt = s.pcnt := rfl
@[simp] theorem State.setGcrc_pbuf (c : Crc) : (s.setGcrc c).pbuf = s.pbuf := rfl
@[simp] theorem State.setGcrc_pcrch (c : Crc) : (s.setGcrc c).pcrch = s.pcrch := rfl
@[simp] theorem State.setGcrc_rout (c : Crc) : (s.setGcrc c).rout = s.rout := rfl
@[simp] theorem State.setGcrc_rlen (c : Crc) : (s.setGcrc c).rlen = s.rlen := rfl
@[simp] theorem State.setGcrc_rbuf (c : Crc) : (s.setGcrc c).rbuf = s.rbuf := rfl
@[simp] theorem State.setGcrc_rvalid (c : Crc) : (s.setGcrc c).rvalid = s.rvalid := rfl
@[simp] theorem State.setGcrc_gcrc (c : Crc) : (s.setGcrc c).gcrc = c := rfl
@[simp] theorem State.setGcrc_tcnt (c : Crc) : (s.setGcrc c).tcnt = s.tcnt := rfl
@[simp] theorem State.setGcrc_tbuf (c : Crc) : (s.setGcrc c).tbuf = s.tbuf := rfl
@[simp] theorem State.setGcrc_tstat (c : Crc) : (s.setGcrc c).tstat = s.tstat := rfl
@[simp] theorem State.setGcrc_txq (c : Crc) : (s.setGcrc c).txq = s.txq := rfl
@[simp] theorem State.setGcrc_txout (c : Crc) : (s.setGcrc c).txout = s.txout := rfl
@[simp] theorem State.setGcrc_rxOutValid (c : Crc) : (s.setGcrc c).rxOutValid = s.rxOutValid := rfl
@[simp] theorem State.setGcrc_txStatusValid (c : Crc) : (s.setGcrc c).txStatusValid = s.txStatusValid := rfl
@[simp] theorem State.setGcrc_inputs (c : Crc) : (s.setGcrc c).inputs = s.inputs := rfl
@[simp] theorem State.setGcrc_obs (c : Crc) : (s.setGcrc c).obs = s.obs := rfl
@[simp] theorem State.setGcrc_draws (c : Crc) : (s.setGcrc c).draws = s.draws := rfl

/-! ## `State.setTcnt` -/

@[simp] theorem State.setTcnt_pst (n : BitVec 9) : (s.setTcnt n).pst = s.pst := rfl
@[simp] theorem State.setTcnt_plen (n : BitVec 9) : (s.setTcnt n).plen = s.plen := rfl
@[simp] theorem State.setTcnt_pcnt (n : BitVec 9) : (s.setTcnt n).pcnt = s.pcnt := rfl
@[simp] theorem State.setTcnt_pbuf (n : BitVec 9) : (s.setTcnt n).pbuf = s.pbuf := rfl
@[simp] theorem State.setTcnt_pcrch (n : BitVec 9) : (s.setTcnt n).pcrch = s.pcrch := rfl
@[simp] theorem State.setTcnt_rout (n : BitVec 9) : (s.setTcnt n).rout = s.rout := rfl
@[simp] theorem State.setTcnt_rlen (n : BitVec 9) : (s.setTcnt n).rlen = s.rlen := rfl
@[simp] theorem State.setTcnt_rbuf (n : BitVec 9) : (s.setTcnt n).rbuf = s.rbuf := rfl
@[simp] theorem State.setTcnt_rvalid (n : BitVec 9) : (s.setTcnt n).rvalid = s.rvalid := rfl
@[simp] theorem State.setTcnt_gcrc (n : BitVec 9) : (s.setTcnt n).gcrc = s.gcrc := rfl
@[simp] theorem State.setTcnt_tcnt (n : BitVec 9) : (s.setTcnt n).tcnt = n := rfl
@[simp] theorem State.setTcnt_tbuf (n : BitVec 9) : (s.setTcnt n).tbuf = s.tbuf := rfl
@[simp] theorem State.setTcnt_tstat (n : BitVec 9) : (s.setTcnt n).tstat = s.tstat := rfl
@[simp] theorem State.setTcnt_txq (n : BitVec 9) : (s.setTcnt n).txq = s.txq := rfl
@[simp] theorem State.setTcnt_txout (n : BitVec 9) : (s.setTcnt n).txout = s.txout := rfl
@[simp] theorem State.setTcnt_rxOutValid (n : BitVec 9) : (s.setTcnt n).rxOutValid = s.rxOutValid := rfl
@[simp] theorem State.setTcnt_txStatusValid (n : BitVec 9) : (s.setTcnt n).txStatusValid = s.txStatusValid := rfl
@[simp] theorem State.setTcnt_inputs (n : BitVec 9) : (s.setTcnt n).inputs = s.inputs := rfl
@[simp] theorem State.setTcnt_obs (n : BitVec 9) : (s.setTcnt n).obs = s.obs := rfl
@[simp] theorem State.setTcnt_draws (n : BitVec 9) : (s.setTcnt n).draws = s.draws := rfl

/-! ## `State.queueFrame` -/

@[simp] theorem State.queueFrame_pst (f : List Byte) : (s.queueFrame f).pst = s.pst := rfl
@[simp] theorem State.queueFrame_plen (f : List Byte) : (s.queueFrame f).plen = s.plen := rfl
@[simp] theorem State.queueFrame_pcnt (f : List Byte) : (s.queueFrame f).pcnt = s.pcnt := rfl
@[simp] theorem State.queueFrame_pbuf (f : List Byte) : (s.queueFrame f).pbuf = s.pbuf := rfl
@[simp] theorem State.queueFrame_pcrch (f : List Byte) : (s.queueFrame f).pcrch = s.pcrch := rfl
@[simp] theorem State.queueFrame_rout (f : List Byte) : (s.queueFrame f).rout = s.rout := rfl
@[simp] theorem State.queueFrame_rlen (f : List Byte) : (s.queueFrame f).rlen = s.rlen := rfl
@[simp] theorem State.queueFrame_rbuf (f : List Byte) : (s.queueFrame f).rbuf = s.rbuf := rfl
@[simp] theorem State.queueFrame_rvalid (f : List Byte) : (s.queueFrame f).rvalid = s.rvalid := rfl
@[simp] theorem State.queueFrame_gcrc (f : List Byte) : (s.queueFrame f).gcrc = s.gcrc := rfl
@[simp] theorem State.queueFrame_tcnt (f : List Byte) : (s.queueFrame f).tcnt = s.tcnt := rfl
@[simp] theorem State.queueFrame_tbuf (f : List Byte) : (s.queueFrame f).tbuf = s.tbuf := rfl
@[simp] theorem State.queueFrame_tstat (f : List Byte) : (s.queueFrame f).tstat = s.tstat := rfl
@[simp] theorem State.queueFrame_txq (f : List Byte) : (s.queueFrame f).txq = f := rfl
@[simp] theorem State.queueFrame_txout (f : List Byte) : (s.queueFrame f).txout = s.txout := rfl
@[simp] theorem State.queueFrame_rxOutValid (f : List Byte) : (s.queueFrame f).rxOutValid = s.rxOutValid := rfl
@[simp] theorem State.queueFrame_txStatusValid (f : List Byte) : (s.queueFrame f).txStatusValid = s.txStatusValid := rfl
@[simp] theorem State.queueFrame_inputs (f : List Byte) : (s.queueFrame f).inputs = s.inputs := rfl
@[simp] theorem State.queueFrame_obs (f : List Byte) : (s.queueFrame f).obs = s.obs := rfl
@[simp] theorem State.queueFrame_draws (f : List Byte) : (s.queueFrame f).draws = s.draws := rfl

/-! ## `State.recordStatus` -/

@[simp] theorem State.recordStatus_pst (st : TxStatus) (f : Option (List Byte)) : (s.recordStatus st f).pst = s.pst := rfl
@[simp] theorem State.recordStatus_plen (st : TxStatus) (f : Option (List Byte)) : (s.recordStatus st f).plen = s.plen := rfl
@[simp] theorem State.recordStatus_pcnt (st : TxStatus) (f : Option (List Byte)) : (s.recordStatus st f).pcnt = s.pcnt := rfl
@[simp] theorem State.recordStatus_pbuf (st : TxStatus) (f : Option (List Byte)) : (s.recordStatus st f).pbuf = s.pbuf := rfl
@[simp] theorem State.recordStatus_pcrch (st : TxStatus) (f : Option (List Byte)) : (s.recordStatus st f).pcrch = s.pcrch := rfl
@[simp] theorem State.recordStatus_rout (st : TxStatus) (f : Option (List Byte)) : (s.recordStatus st f).rout = s.rout := rfl
@[simp] theorem State.recordStatus_rlen (st : TxStatus) (f : Option (List Byte)) : (s.recordStatus st f).rlen = s.rlen := rfl
@[simp] theorem State.recordStatus_rbuf (st : TxStatus) (f : Option (List Byte)) : (s.recordStatus st f).rbuf = s.rbuf := rfl
@[simp] theorem State.recordStatus_rvalid (st : TxStatus) (f : Option (List Byte)) : (s.recordStatus st f).rvalid = s.rvalid := rfl
@[simp] theorem State.recordStatus_gcrc (st : TxStatus) (f : Option (List Byte)) : (s.recordStatus st f).gcrc = s.gcrc := rfl
@[simp] theorem State.recordStatus_tcnt (st : TxStatus) (f : Option (List Byte)) : (s.recordStatus st f).tcnt = 0 := rfl
@[simp] theorem State.recordStatus_tbuf (st : TxStatus) (f : Option (List Byte)) : (s.recordStatus st f).tbuf = s.tbuf := rfl
@[simp] theorem State.recordStatus_tstat (st : TxStatus) (f : Option (List Byte)) : (s.recordStatus st f).tstat = st := rfl
@[simp] theorem State.recordStatus_txq (st : TxStatus) (f : Option (List Byte)) : (s.recordStatus st f).txq = s.txq := rfl
@[simp] theorem State.recordStatus_txout (st : TxStatus) (f : Option (List Byte)) : (s.recordStatus st f).txout = s.txout := rfl
@[simp] theorem State.recordStatus_rxOutValid (st : TxStatus) (f : Option (List Byte)) : (s.recordStatus st f).rxOutValid = s.rxOutValid := rfl
@[simp] theorem State.recordStatus_txStatusValid (st : TxStatus) (f : Option (List Byte)) : (s.recordStatus st f).txStatusValid = true := rfl
@[simp] theorem State.recordStatus_inputs (st : TxStatus) (f : Option (List Byte)) : (s.recordStatus st f).inputs = s.inputs := rfl
@[simp] theorem State.recordStatus_obs (st : TxStatus) (f : Option (List Byte)) : (s.recordStatus st f).obs = s.obs ++ [.tx st f] := rfl
@[simp] theorem State.recordStatus_draws (st : TxStatus) (f : Option (List Byte)) : (s.recordStatus st f).draws = s.draws := rfl

/-! ## `State.sendByte` -/

@[simp] theorem State.sendByte_pst : s.sendByte.pst = s.pst := rfl
@[simp] theorem State.sendByte_plen : s.sendByte.plen = s.plen := rfl
@[simp] theorem State.sendByte_pcnt : s.sendByte.pcnt = s.pcnt := rfl
@[simp] theorem State.sendByte_pbuf : s.sendByte.pbuf = s.pbuf := rfl
@[simp] theorem State.sendByte_pcrch : s.sendByte.pcrch = s.pcrch := rfl
@[simp] theorem State.sendByte_rout : s.sendByte.rout = s.rout := rfl
@[simp] theorem State.sendByte_rlen : s.sendByte.rlen = s.rlen := rfl
@[simp] theorem State.sendByte_rbuf : s.sendByte.rbuf = s.rbuf := rfl
@[simp] theorem State.sendByte_rvalid : s.sendByte.rvalid = s.rvalid := rfl
@[simp] theorem State.sendByte_gcrc : s.sendByte.gcrc = s.gcrc := rfl
@[simp] theorem State.sendByte_tcnt : s.sendByte.tcnt = s.tcnt := rfl
@[simp] theorem State.sendByte_tbuf : s.sendByte.tbuf = s.tbuf := rfl
@[simp] theorem State.sendByte_tstat : s.sendByte.tstat = s.tstat := rfl
@[simp] theorem State.sendByte_txq : s.sendByte.txq = s.txq.drop 1 := rfl
@[simp] theorem State.sendByte_txout : s.sendByte.txout = s.txout ++ s.txq.take 1 := rfl
@[simp] theorem State.sendByte_rxOutValid : s.sendByte.rxOutValid = s.rxOutValid := rfl
@[simp] theorem State.sendByte_txStatusValid : s.sendByte.txStatusValid = s.txStatusValid := rfl
@[simp] theorem State.sendByte_inputs : s.sendByte.inputs = s.inputs := rfl
@[simp] theorem State.sendByte_obs : s.sendByte.obs = s.obs := rfl
@[simp] theorem State.sendByte_draws : s.sendByte.draws = s.draws := rfl

/-! ## `State.sendAll` -/

@[simp] theorem State.sendAll_pst : s.sendAll.pst = s.pst := rfl
@[simp] theorem State.sendAll_plen : s.sendAll.plen = s.plen := rfl
@[simp] theorem State.sendAll_pcnt : s.sendAll.pcnt = s.pcnt := rfl
@[simp] theorem State.sendAll_pbuf : s.sendAll.pbuf = s.pbuf := rfl
@[simp] theorem State.sendAll_pcrch : s.sendAll.pcrch = s.pcrch := rfl
@[simp] theorem State.sendAll_rout : s.sendAll.rout = s.rout := rfl
@[simp] theorem State.sendAll_rlen : s.sendAll.rlen = s.rlen := rfl
@[simp] theorem State.sendAll_rbuf : s.sendAll.rbuf = s.rbuf := rfl
@[simp] theorem State.sendAll_rvalid : s.sendAll.rvalid = s.rvalid := rfl
@[simp] theorem State.sendAll_gcrc : s.sendAll.gcrc = s.gcrc := rfl
@[simp] theorem State.sendAll_tcnt : s.sendAll.tcnt = s.tcnt := rfl
@[simp] theorem State.sendAll_tbuf : s.sendAll.tbuf = s.tbuf := rfl
@[simp] theorem State.sendAll_tstat : s.sendAll.tstat = s.tstat := rfl
@[simp] theorem State.sendAll_txq : s.sendAll.txq = [] := rfl
@[simp] theorem State.sendAll_txout : s.sendAll.txout = s.txout ++ s.txq := rfl
@[simp] theorem State.sendAll_rxOutValid : s.sendAll.rxOutValid = s.rxOutValid := rfl
@[simp] theorem State.sendAll_txStatusValid : s.sendAll.txStatusValid = s.txStatusValid := rfl
@[simp] theorem State.sendAll_inputs : s.sendAll.inputs = s.inputs := rfl
@[simp] theorem State.sendAll_obs : s.sendAll.obs = s.obs := rfl
@[simp] theorem State.sendAll_draws : s.sendAll.draws = s.draws := rfl

/-! ## `State.tick` -/

@[simp] theorem State.tick_pst : s.tick.pst = s.pst := rfl
@[simp] theorem State.tick_plen : s.tick.plen = s.plen := rfl
@[simp] theorem State.tick_pcnt : s.tick.pcnt = s.pcnt := rfl
@[simp] theorem State.tick_pbuf : s.tick.pbuf = s.pbuf := rfl
@[simp] theorem State.tick_pcrch : s.tick.pcrch = s.pcrch := rfl
@[simp] theorem State.tick_rout : s.tick.rout = s.rout := rfl
@[simp] theorem State.tick_rlen : s.tick.rlen = s.rlen := rfl
@[simp] theorem State.tick_rbuf : s.tick.rbuf = s.rbuf := rfl
@[simp] theorem State.tick_rvalid : s.tick.rvalid = s.rvalid := rfl
@[simp] theorem State.tick_gcrc : s.tick.gcrc = s.gcrc := rfl
@[simp] theorem State.tick_tcnt : s.tick.tcnt = s.tcnt := rfl
@[simp] theorem State.tick_tbuf : s.tick.tbuf = s.tbuf := rfl
@[simp] theorem State.tick_tstat : s.tick.tstat = s.tstat := rfl
@[simp] theorem State.tick_txq : s.tick.txq = s.txq := rfl
@[simp] theorem State.tick_txout : s.tick.txout = s.txout := rfl
@[simp] theorem State.tick_rxOutValid : s.tick.rxOutValid = false := rfl
@[simp] theorem State.tick_txStatusValid : s.tick.txStatusValid = false := rfl
@[simp] theorem State.tick_inputs : s.tick.inputs = s.inputs := rfl
@[simp] theorem State.tick_obs : s.tick.obs = s.obs := rfl
@[simp] theorem State.tick_draws : s.tick.draws = s.draws + 1 := rfl

/-! ## `State.popInput` -/

@[simp] theorem State.popInput_pst : s.popInput.pst = s.pst := rfl
@[simp] theorem State.popInput_plen : s.popInput.plen = s.plen := rfl
@[simp] theorem State.popInput_pcnt : s.popInput.pcnt = s.pcnt := rfl
@[simp] theorem State.popInput_pbuf : s.popInput.pbuf = s.pbuf := rfl
@[simp] theorem State.popInput_pcrch : s.popInput.pcrch = s.pcrch := rfl
@[simp] theorem State.popInput_rout : s.popInput.rout = s.rout := rfl
@[simp] theorem State.popInput_rlen : s.popInput.rlen = s.rlen := rfl
@[simp] theorem State.popInput_rbuf : s.popInput.rbuf = s.rbuf := rfl
@[simp] theorem State.popInput_rvalid : s.popInput.rvalid = s.rvalid := rfl
@[simp] theorem State.popInput_gcrc : s.popInput.gcrc = s.gcrc := rfl
@[simp] theorem State.popInput_tcnt : s.popInput.tcnt = s.tcnt := rfl
@[simp] theorem State.popInput_tbuf : s.popInput.tbuf = s.tbuf := rfl
@[simp] theorem State.popInput_tstat : s.popInput.tstat = s.tstat := rfl
@[simp] theorem State.popInput_txq : s.popInput.txq = s.txq := rfl
@[simp] theorem State.popInput_txout : s.popInput.txout = s.txout := rfl
@[simp] theorem State.popInput_rxOutValid : s.popInput.rxOutValid = s.rxOutValid := rfl
@[simp] theorem State.popInput_txStatusValid : s.popInput.txStatusValid = s.txStatusValid := rfl
@[simp] theorem State.popInput_inputs : s.popInput.inputs = s.inputs.drop 1 := rfl
@[simp] theorem State.popInput_obs : s.popInput.obs = s.obs := rfl
@[simp] theorem State.popInput_draws : s.popInput.draws = s.draws := rfl

/-! ## `State.resetEdge` -/

@[simp] theorem State.resetEdge_pst : s.resetEdge.pst = State.reset.pst := rfl
@[simp] theorem State.resetEdge_plen : s.resetEdge.plen = State.reset.plen := rfl
@[simp] theorem State.resetEdge_pcnt : s.resetEdge.pcnt = State.reset.pcnt := rfl
@[simp] theorem State.resetEdge_pbuf : s.resetEdge.pbuf = State.reset.pbuf := rfl
@[simp] theorem State.resetEdge_pcrch : s.resetEdge.pcrch = State.reset.pcrch := rfl
@[simp] theorem State.resetEdge_rout : s.resetEdge.rout = State.reset.rout := rfl
@[simp] theorem State.resetEdge_rlen : s.resetEdge.rlen = State.reset.rlen := rfl
@[simp] theorem State.resetEdge_rbuf : s.resetEdge.rbuf = State.reset.rbuf := rfl
@[simp] theorem State.resetEdge_rvalid : s.resetEdge.rvalid = State.reset.rvalid := rfl
@[simp] theorem State.resetEdge_gcrc : s.resetEdge.gcrc = State.reset.gcrc := rfl
@[simp] theorem State.resetEdge_tcnt : s.resetEdge.tcnt = State.reset.tcnt := rfl
@[simp] theorem State.resetEdge_tbuf : s.resetEdge.tbuf = State.reset.tbuf := rfl
@[simp] theorem State.resetEdge_tstat : s.resetEdge.tstat = State.reset.tstat := rfl
@[simp] theorem State.resetEdge_txq : s.resetEdge.txq = State.reset.txq := rfl
@[simp] theorem State.resetEdge_txout : s.resetEdge.txout = State.reset.txout := rfl
@[simp] theorem State.resetEdge_rxOutValid : s.resetEdge.rxOutValid = State.reset.rxOutValid := rfl
@[simp] theorem State.resetEdge_txStatusValid : s.resetEdge.txStatusValid = State.reset.txStatusValid := rfl
@[simp] theorem State.resetEdge_inputs : s.resetEdge.inputs = s.inputs := rfl
@[simp] theorem State.resetEdge_obs : s.resetEdge.obs = s.obs := rfl
@[simp] theorem State.resetEdge_draws : s.resetEdge.draws = s.draws := rfl

/-! ## `State.setSpace` -/

@[simp] theorem State.setSpace_pbuf_pst (m : Memory) : (s.setSpace .pbuf m).pst = s.pst := rfl
@[simp] theorem State.setSpace_pbuf_plen (m : Memory) : (s.setSpace .pbuf m).plen = s.plen := rfl
@[simp] theorem State.setSpace_pbuf_pcnt (m : Memory) : (s.setSpace .pbuf m).pcnt = s.pcnt := rfl
@[simp] theorem State.setSpace_pbuf_pbuf (m : Memory) : (s.setSpace .pbuf m).pbuf = m := rfl
@[simp] theorem State.setSpace_pbuf_pcrch (m : Memory) : (s.setSpace .pbuf m).pcrch = s.pcrch := rfl
@[simp] theorem State.setSpace_pbuf_rout (m : Memory) : (s.setSpace .pbuf m).rout = s.rout := rfl
@[simp] theorem State.setSpace_pbuf_rlen (m : Memory) : (s.setSpace .pbuf m).rlen = s.rlen := rfl
@[simp] theorem State.setSpace_pbuf_rbuf (m : Memory) : (s.setSpace .pbuf m).rbuf = s.rbuf := rfl
@[simp] theorem State.setSpace_pbuf_rvalid (m : Memory) : (s.setSpace .pbuf m).rvalid = s.rvalid := rfl
@[simp] theorem State.setSpace_pbuf_gcrc (m : Memory) : (s.setSpace .pbuf m).gcrc = s.gcrc := rfl
@[simp] theorem State.setSpace_pbuf_tcnt (m : Memory) : (s.setSpace .pbuf m).tcnt = s.tcnt := rfl
@[simp] theorem State.setSpace_pbuf_tbuf (m : Memory) : (s.setSpace .pbuf m).tbuf = s.tbuf := rfl
@[simp] theorem State.setSpace_pbuf_tstat (m : Memory) : (s.setSpace .pbuf m).tstat = s.tstat := rfl
@[simp] theorem State.setSpace_pbuf_txq (m : Memory) : (s.setSpace .pbuf m).txq = s.txq := rfl
@[simp] theorem State.setSpace_pbuf_txout (m : Memory) : (s.setSpace .pbuf m).txout = s.txout := rfl
@[simp] theorem State.setSpace_pbuf_rxOutValid (m : Memory) : (s.setSpace .pbuf m).rxOutValid = s.rxOutValid := rfl
@[simp] theorem State.setSpace_pbuf_txStatusValid (m : Memory) : (s.setSpace .pbuf m).txStatusValid = s.txStatusValid := rfl
@[simp] theorem State.setSpace_pbuf_inputs (m : Memory) : (s.setSpace .pbuf m).inputs = s.inputs := rfl
@[simp] theorem State.setSpace_pbuf_obs (m : Memory) : (s.setSpace .pbuf m).obs = s.obs := rfl
@[simp] theorem State.setSpace_pbuf_draws (m : Memory) : (s.setSpace .pbuf m).draws = s.draws := rfl

@[simp] theorem State.setSpace_rbuf_pst (m : Memory) : (s.setSpace .rbuf m).pst = s.pst := rfl
@[simp] theorem State.setSpace_rbuf_plen (m : Memory) : (s.setSpace .rbuf m).plen = s.plen := rfl
@[simp] theorem State.setSpace_rbuf_pcnt (m : Memory) : (s.setSpace .rbuf m).pcnt = s.pcnt := rfl
@[simp] theorem State.setSpace_rbuf_pbuf (m : Memory) : (s.setSpace .rbuf m).pbuf = s.pbuf := rfl
@[simp] theorem State.setSpace_rbuf_pcrch (m : Memory) : (s.setSpace .rbuf m).pcrch = s.pcrch := rfl
@[simp] theorem State.setSpace_rbuf_rout (m : Memory) : (s.setSpace .rbuf m).rout = s.rout := rfl
@[simp] theorem State.setSpace_rbuf_rlen (m : Memory) : (s.setSpace .rbuf m).rlen = s.rlen := rfl
@[simp] theorem State.setSpace_rbuf_rbuf (m : Memory) : (s.setSpace .rbuf m).rbuf = m := rfl
@[simp] theorem State.setSpace_rbuf_rvalid (m : Memory) : (s.setSpace .rbuf m).rvalid = s.rvalid := rfl
@[simp] theorem State.setSpace_rbuf_gcrc (m : Memory) : (s.setSpace .rbuf m).gcrc = s.gcrc := rfl
@[simp] theorem State.setSpace_rbuf_tcnt (m : Memory) : (s.setSpace .rbuf m).tcnt = s.tcnt := rfl
@[simp] theorem State.setSpace_rbuf_tbuf (m : Memory) : (s.setSpace .rbuf m).tbuf = s.tbuf := rfl
@[simp] theorem State.setSpace_rbuf_tstat (m : Memory) : (s.setSpace .rbuf m).tstat = s.tstat := rfl
@[simp] theorem State.setSpace_rbuf_txq (m : Memory) : (s.setSpace .rbuf m).txq = s.txq := rfl
@[simp] theorem State.setSpace_rbuf_txout (m : Memory) : (s.setSpace .rbuf m).txout = s.txout := rfl
@[simp] theorem State.setSpace_rbuf_rxOutValid (m : Memory) : (s.setSpace .rbuf m).rxOutValid = s.rxOutValid := rfl
@[simp] theorem State.setSpace_rbuf_txStatusValid (m : Memory) : (s.setSpace .rbuf m).txStatusValid = s.txStatusValid := rfl
@[simp] theorem State.setSpace_rbuf_inputs (m : Memory) : (s.setSpace .rbuf m).inputs = s.inputs := rfl
@[simp] theorem State.setSpace_rbuf_obs (m : Memory) : (s.setSpace .rbuf m).obs = s.obs := rfl
@[simp] theorem State.setSpace_rbuf_draws (m : Memory) : (s.setSpace .rbuf m).draws = s.draws := rfl

@[simp] theorem State.setSpace_tbuf_pst (m : Memory) : (s.setSpace .tbuf m).pst = s.pst := rfl
@[simp] theorem State.setSpace_tbuf_plen (m : Memory) : (s.setSpace .tbuf m).plen = s.plen := rfl
@[simp] theorem State.setSpace_tbuf_pcnt (m : Memory) : (s.setSpace .tbuf m).pcnt = s.pcnt := rfl
@[simp] theorem State.setSpace_tbuf_pbuf (m : Memory) : (s.setSpace .tbuf m).pbuf = s.pbuf := rfl
@[simp] theorem State.setSpace_tbuf_pcrch (m : Memory) : (s.setSpace .tbuf m).pcrch = s.pcrch := rfl
@[simp] theorem State.setSpace_tbuf_rout (m : Memory) : (s.setSpace .tbuf m).rout = s.rout := rfl
@[simp] theorem State.setSpace_tbuf_rlen (m : Memory) : (s.setSpace .tbuf m).rlen = s.rlen := rfl
@[simp] theorem State.setSpace_tbuf_rbuf (m : Memory) : (s.setSpace .tbuf m).rbuf = s.rbuf := rfl
@[simp] theorem State.setSpace_tbuf_rvalid (m : Memory) : (s.setSpace .tbuf m).rvalid = s.rvalid := rfl
@[simp] theorem State.setSpace_tbuf_gcrc (m : Memory) : (s.setSpace .tbuf m).gcrc = s.gcrc := rfl
@[simp] theorem State.setSpace_tbuf_tcnt (m : Memory) : (s.setSpace .tbuf m).tcnt = s.tcnt := rfl
@[simp] theorem State.setSpace_tbuf_tbuf (m : Memory) : (s.setSpace .tbuf m).tbuf = m := rfl
@[simp] theorem State.setSpace_tbuf_tstat (m : Memory) : (s.setSpace .tbuf m).tstat = s.tstat := rfl
@[simp] theorem State.setSpace_tbuf_txq (m : Memory) : (s.setSpace .tbuf m).txq = s.txq := rfl
@[simp] theorem State.setSpace_tbuf_txout (m : Memory) : (s.setSpace .tbuf m).txout = s.txout := rfl
@[simp] theorem State.setSpace_tbuf_rxOutValid (m : Memory) : (s.setSpace .tbuf m).rxOutValid = s.rxOutValid := rfl
@[simp] theorem State.setSpace_tbuf_txStatusValid (m : Memory) : (s.setSpace .tbuf m).txStatusValid = s.txStatusValid := rfl
@[simp] theorem State.setSpace_tbuf_inputs (m : Memory) : (s.setSpace .tbuf m).inputs = s.inputs := rfl
@[simp] theorem State.setSpace_tbuf_obs (m : Memory) : (s.setSpace .tbuf m).obs = s.obs := rfl
@[simp] theorem State.setSpace_tbuf_draws (m : Memory) : (s.setSpace .tbuf m).draws = s.draws := rfl

/-! ## `State.space` -/

@[simp] theorem State.space_pbuf : s.space .pbuf = s.pbuf := rfl
@[simp] theorem State.space_rbuf : s.space .rbuf = s.rbuf := rfl
@[simp] theorem State.space_tbuf : s.space .tbuf = s.tbuf := rfl

end Sys2Proof.Machine
end

