-- ==== Sys2Proof/Laws/Memory.lean ====
section
/-!
SUPPORT. The buffers: a read after a write, the canonical form, and what the shared buffer operations
answer.
-/

namespace Sys2Proof.Machine

/-! ## One byte -/

@[simp] theorem Memory.read?_write_same (m : Memory) (a : Nat) (b : Byte) :
    (m.write a b).read? a = some b := by
  induction m with
  | nil => simp [Memory.write, Memory.read?]
  | cons c m ih =>
    obtain ⟨k, v⟩ := c
    unfold Memory.write
    split_ifs with hlt heq
    · simp [Memory.read?]
    · simp [Memory.read?]
    · simpa [Memory.read?, heq] using ih

theorem Memory.read?_write_other (m : Memory) {a i : Nat} (b : Byte) (h : i ≠ a) :
    (m.write a b).read? i = m.read? i := by
  induction m with
  | nil => simp [Memory.write, Memory.read?, h]
  | cons c m ih =>
    obtain ⟨k, v⟩ := c
    unfold Memory.write
    split_ifs with hlt heq
    · simp [Memory.read?, h]
    · subst heq; simp [Memory.read?, h]
    · simp [Memory.read?, ih]

theorem Memory.mem_write {m : Memory} {a : Nat} {b : Byte} {c : Host.Cell}
    (h : c ∈ m.write a b) : c = (a, b) ∨ c ∈ m := by
  induction m with
  | nil => simpa [Memory.write] using h
  | cons d m ih =>
    obtain ⟨k, v⟩ := d
    unfold Memory.write at h
    split_ifs at h with hlt heq
    · simpa using h
    · rcases List.mem_cons.1 h with h | h <;> simp [h]
    · rcases List.mem_cons.1 h with h | h
      · simp [h]
      · rcases ih h with h | h <;> simp [h]

theorem Memory.write_wf {m : Memory} (a : Nat) (b : Byte) (h : m.wf) : (m.write a b).wf := by
  induction m with
  | nil => simp [Memory.write, Memory.wf]
  | cons c m ih =>
    obtain ⟨k, v⟩ := c
    obtain ⟨hk, hm⟩ := List.pairwise_cons.1 h
    unfold Memory.write
    split_ifs with hlt heq
    · refine List.pairwise_cons.2 ⟨fun d hd => ?_, h⟩
      rcases List.mem_cons.1 hd with rfl | hd
      · exact hlt
      · exact hlt.trans (hk d hd)
    · subst heq; exact List.pairwise_cons.2 ⟨hk, hm⟩
    · refine List.pairwise_cons.2 ⟨fun d hd => ?_, ih hm⟩
      rcases Memory.mem_write hd with rfl | hd
      · show k < a; omega
      · exact hk d hd

theorem Memory.write_inRange {m : Memory} {a : Nat} (b : Byte) (h : m.inRange)
    (ha : a < Config.bufBytes) : (m.write a b).inRange := by
  intro c hc
  rcases Memory.mem_write hc with rfl | hc
  · exact ha
  · exact h c hc

theorem Memory.writtenTo_write {m : Memory} {n : Nat} (a : Nat) (b : Byte) (h : m.writtenTo n) :
    (m.write a b).writtenTo n := by
  intro i hi
  by_cases hia : i = a
  · subst hia; simp
  · rw [Memory.read?_write_other m b hia]; exact h i hi

theorem Memory.writtenTo_write_succ {m : Memory} {n : Nat} (b : Byte) (h : m.writtenTo n) :
    (m.write n b).writtenTo (n + 1) := by
  intro i hi
  rcases Nat.lt_succ_iff_lt_or_eq.1 hi with hi | rfl
  · exact Memory.writtenTo_write n b h i hi
  · simp

/-! ## A run of bytes -/

theorem Memory.writeFrom_wf {m : Memory} (i : Nat) (p : List Byte) (h : m.wf) :
    (m.writeFrom i p).wf := by
  induction p generalizing m i with
  | nil => exact h
  | cons b p ih => exact ih (i + 1) (Memory.write_wf i b h)

theorem Memory.writeFrom_inRange {m : Memory} {i : Nat} (p : List Byte) (h : m.inRange)
    (hi : i + p.length ≤ Config.bufBytes) : (m.writeFrom i p).inRange := by
  induction p generalizing m i with
  | nil => exact h
  | cons b p ih =>
    simp only [List.length_cons] at hi
    exact ih (Memory.write_inRange b h (by omega)) (by omega)

theorem Memory.read?_writeFrom_below {m : Memory} {i j : Nat} (p : List Byte) (h : j < i) :
    (m.writeFrom i p).read? j = m.read? j := by
  induction p generalizing m i with
  | nil => rfl
  | cons b p ih =>
    rw [Memory.writeFrom, ih (Nat.lt_succ_of_lt h), Memory.read?_write_other m b (Nat.ne_of_lt h)]

theorem Memory.read?_writeFrom_above {m : Memory} {i j : Nat} (p : List Byte)
    (h : i + p.length ≤ j) : (m.writeFrom i p).read? j = m.read? j := by
  induction p generalizing m i with
  | nil => rfl
  | cons b p ih =>
    simp only [List.length_cons] at h
    rw [Memory.writeFrom, ih (by omega), Memory.read?_write_other m b (by omega)]

theorem Memory.read?_writeFrom_inside {m : Memory} {i k : Nat} (p : List Byte)
    (h : k < p.length) : (m.writeFrom i p).read? (i + k) = some p[k] := by
  induction p generalizing m i k with
  | nil => exact absurd h (Nat.not_lt_zero k)
  | cons b p ih =>
    cases k with
    | zero =>
      rw [Memory.writeFrom]
      exact (Memory.read?_writeFrom_below p (Nat.lt_succ_self i)).trans (by simp)
    | succ k =>
      have := ih (m := m.write i b) (i := i + 1) (k := k) (by simpa using h)
      rw [Memory.writeFrom, show i + (k + 1) = i + 1 + k by omega, this]
      simp

/-! ## The shared buffer operations -/

theorem memRead_ok {sp : Space} {i : Nat} {s : State} {b : Byte} (h : memRead sp i s = .ok b) :
    i < Config.bufBytes ∧ b = s.byteAt sp i := by
  unfold memRead at h
  split at h
  · exact ⟨‹_›, by cases h; rfl⟩
  · cases h

theorem memWrite_ok {sp : Space} {i : Nat} {v : Byte} {s t : State} (h : memWrite sp i v s = .ok t) :
    i < Config.bufBytes ∧ t = s.setSpace sp ((s.space sp).write i v) := by
  unfold memWrite at h
  split at h
  · exact ⟨‹_›, by cases h; rfl⟩
  · cases h

theorem memReadPrefix_ok {sp : Space} {n : Nat} {s : State} {p : List Byte}
    (h : memReadPrefix sp n s = .ok p) : n ≤ Config.bufBytes ∧ p = s.prefixOf sp n := by
  unfold memReadPrefix at h
  split at h
  · exact ⟨‹_›, by cases h; rfl⟩
  · cases h

theorem memWritePrefix_ok {sp : Space} {p : List Byte} {s t : State}
    (h : memWritePrefix sp p s = .ok t) :
    p.length ≤ Config.bufBytes ∧ t = s.setSpace sp ((s.space sp).writeFrom 0 p) := by
  unfold memWritePrefix at h
  split at h
  · exact ⟨‹_›, by cases h; rfl⟩
  · cases h

@[simp] theorem State.space_setSpace_same (s : State) (sp : Space) (m : Memory) :
    (s.setSpace sp m).space sp = m := by
  cases sp <;> rfl

theorem State.space_setSpace_other (s : State) {sp sq : Space} (m : Memory) (h : sq ≠ sp) :
    (s.setSpace sp m).space sq = s.space sq := by
  cases sp <;> cases sq <;> first | rfl | exact absurd rfl h

/-- A byte depends on its own buffer only. -/
theorem State.byteAt_of_space_eq {s t : State} {sp : Space} (h : t.space sp = s.space sp) (i : Nat) :
    t.byteAt sp i = s.byteAt sp i := by
  unfold State.byteAt; rw [h]

theorem State.prefixOf_of_space_eq {s t : State} {sp : Space} (h : t.space sp = s.space sp) (n : Nat) :
    t.prefixOf sp n = s.prefixOf sp n := by
  unfold State.prefixOf; rw [funext (State.byteAt_of_space_eq h)]

@[simp] theorem State.prefixOf_length (s : State) (sp : Space) (n : Nat) :
    (s.prefixOf sp n).length = n := by
  simp [State.prefixOf]

theorem State.prefixOf_succ (s : State) (sp : Space) (n : Nat) :
    s.prefixOf sp (n + 1) = s.prefixOf sp n ++ [s.byteAt sp n] := by
  simp [State.prefixOf, List.range_succ]

/-- A byte appended at index `n` extends the prefix by it. -/
theorem prefixOf_append_byte (s : State) (sp : Space) (n : Nat) (b : Byte) :
    (s.setSpace sp ((s.space sp).write n b)).prefixOf sp (n + 1) = s.prefixOf sp n ++ [b] := by
  rw [State.prefixOf_succ]
  congr 1
  · unfold State.prefixOf
    refine List.map_congr_left fun i hi => ?_
    have hi : i ≠ n := Nat.ne_of_lt (List.mem_range.1 hi)
    simp [State.byteAt, Memory.read?_write_other _ b hi]
  · simp [State.byteAt]

/-- A payload written from index 0 is the prefix of its length. -/
theorem prefixOf_writeFrom (s : State) (sp : Space) (p : List Byte) :
    (s.setSpace sp ((s.space sp).writeFrom 0 p)).prefixOf sp p.length = p := by
  apply List.ext_getElem (by simp)
  intro i h₁ h₂
  have := Memory.read?_writeFrom_inside (m := s.space sp) (i := 0) p h₂
  simp only [Nat.zero_add] at this
  simp [State.prefixOf, State.byteAt, this]

theorem byteAt_writeFrom_above (s : State) (sp : Space) (p : List Byte) {i : Nat}
    (h : p.length ≤ i) :
    (s.setSpace sp ((s.space sp).writeFrom 0 p)).byteAt sp i = s.byteAt sp i := by
  have : ((s.space sp).writeFrom 0 p).read? i = (s.space sp).read? i :=
    Memory.read?_writeFrom_above p (by omega)
  simp [State.byteAt, this]

end Sys2Proof.Machine
end

