-- ==== Sys2Proof/Laws/Machine.lean ====
section
/-!
SUPPORT. For each shared operation, once, everything it can do: what follows from its answer, for
proofs to cite instead of unfolding it.
-/

namespace Sys2Proof.Machine

/-! ## Outcomes -/

@[simp] theorem orFault_ok (s : State) : orFault (.ok s) = .next s := rfl
@[simp] theorem orFault_error (f : Fault) : orFault (.error f) = .fault f := rfl

theorem orFault_next {r : Except Fault State} {t : State} (h : orFault r = .next t) : r = .ok t := by
  cases r with
  | ok s => simpa using h
  | error f => simp at h

/-! ## `PST` -/

@[simp] theorem phaseOf_code (ph : Phase) : phaseOf ph.code = some ph := by cases ph <;> rfl

theorem phaseOf_eq_some {v : BitVec 3} {ph : Phase} (h : phaseOf v = some ph) : v = ph.code := by
  revert h; revert v; cases ph <;> decide

theorem phaseOf_eq_none {v : BitVec 3} : phaseOf v = none ↔ v = 6 ∨ v = 7 := by
  revert v; decide

/-! ## `tx_ready` -/

theorem State.txReady_iff {s : State} : s.txReady = true ↔ s.txq = [] := by
  simp [State.txReady, State.txBusy]

theorem State.txReady_eq_false_iff {s : State} : s.txReady = false ↔ s.txq ≠ [] := by
  simp [State.txReady, State.txBusy]

/-! ## The parser -/

/-- The oversize guard of R144 never fires. -/
theorem zext9_le_maxPayload (b : Byte) : ¬ (zext9 b).toNat > Config.maxPayload := by
  have : b.toNat < 256 := b.isLt
  simp only [zext9, BitVec.toNat_setWidth, Config.maxPayload]
  omega

theorem stepLen_eq (b : Byte) (s : State) :
    stepLen b s = .ok ((s.declareLength b).goTo (if b = 0 then .crch else .pay), .needMore) :=
  if_neg (zext9_le_maxPayload b)

theorem plen_le_bufBytes (b : Byte) : b.toNat ≤ Config.bufBytes := by
  have : b.toNat < 256 := b.isLt
  simp only [Config.bufBytes]; omega

theorem stepCrcLo_eq (b : Byte) (s : State) :
    stepCrcLo b s =
      if crcPair s.pcrch b = crc16 (s.prefixOf .pbuf s.plen.toNat) then
        deliver (s.prefixOf .pbuf s.plen.toNat) s.parserClear
      else .ok (s.parserClear, .resync) := by
  unfold stepCrcLo memReadPrefix
  rw [if_pos (plen_le_bufBytes _)]

/-- A payload that fits is delivered whole. -/
theorem deliver_eq {p : List Byte} (s : State) (h : p.length ≤ Config.bufBytes) :
    deliver p s =
      .ok ((s.setSpace .rbuf (s.rbuf.writeFrom 0 p)).markResult p.length, .complete) := by
  unfold deliver memWritePrefix
  rw [if_pos h]
  rfl

theorem stepPay_eq {s : State} (b : Byte) (h : s.pcnt.toNat < Config.bufBytes) :
    stepPay b s =
      .ok (if s.pcnt + 1#8 = s.plen then
            ((s.setSpace .pbuf (s.pbuf.write s.pcnt.toNat b)).countPayloadByte).goTo .crch
          else (s.setSpace .pbuf (s.pbuf.write s.pcnt.toNat b)).countPayloadByte, .needMore) := by
  unfold stepPay memWrite
  rw [if_pos h]
  rfl

theorem stepPay_ok {s t : State} {b : Byte} {o : RxOutcome} (h : stepPay b s = .ok (t, o)) :
    s.pcnt.toNat < Config.bufBytes ∧ o = .needMore := by
  unfold stepPay at h
  split at h
  · next hw => exact ⟨(memWrite_ok hw).1, by cases h; rfl⟩
  · cases h

/-- Everything an `RX_BYTE` that goes on can have done. -/
theorem execRxByte_next {b : Byte} {s t : State} (h : execRxByte b s = .next t) :
    ∃ ph u o, phaseOf s.pst = some ph ∧ feed ph b s = .ok (u, o) ∧ t = u.recordOutcome o := by
  unfold execRxByte at h
  split at h
  · cases h
  · next ph hph =>
    split at h
    · next u o hf => exact ⟨ph, u, o, hph, hf, by cases h; rfl⟩
    · cases h

/-- The one way an `RX_BYTE` runs: the state names a phase and its step answers. -/
theorem execRxByte_of_feed {b : Byte} {s u : State} {ph : Phase} {o : RxOutcome}
    (hp : s.pst = ph.code) (hf : feed ph b s = .ok (u, o)) :
    execRxByte b s = .next (u.recordOutcome o) := by
  unfold execRxByte; rw [hp, phaseOf_code]; simp only [hf]

/-! ## The builder -/

/-- Everything an accepted `TX_PUSH` can have done (R122). -/
theorem pushByte_ok {b : Byte} {s t : State} (h : pushByte b s = .ok t) :
    (s.tcnt.toNat ≤ 254 ∧
      t = (s.setSpace .tbuf (s.tbuf.write s.tcnt.toNat b)).setTcnt (s.tcnt + 1)) ∨
    (s.tcnt.toNat = 255 ∧ t = s.setTcnt 256) ∨
    (255 < s.tcnt.toNat ∧ t = s) := by
  unfold pushByte at h
  split at h
  · next hle =>
    split at h
    · next u hw =>
      obtain ⟨-, rfl⟩ := memWrite_ok hw
      exact .inl ⟨hle, by cases h; rfl⟩
    · cases h
  · split at h
    · exact .inr (.inl ⟨‹_›, by cases h; rfl⟩)
    · exact .inr (.inr ⟨by omega, by cases h; rfl⟩)

/-- A `TX_PUSH` never faults: the index it stores at exists. -/
theorem pushByte_never_faults (b : Byte) (s : State) : ∃ t, pushByte b s = .ok t := by
  unfold pushByte
  split
  · next hle =>
    rw [memWrite, if_pos (by simp only [Config.bufBytes]; omega)]
    exact ⟨_, rfl⟩
  · split <;> exact ⟨_, rfl⟩

theorem buildFrame_of_fits {p : List Byte} (h₁ : 1 ≤ p.length) (h₂ : p.length ≤ 255) :
    buildFrame p = .frame (frameOf p) := by
  unfold buildFrame Config.maxPayload Config.minBuildPayload
  rw [if_neg (by omega), if_neg (by omega)]

@[simp] theorem frameOf_length (p : List Byte) : (frameOf p).length = p.length + 5 := by
  simp [frameOf]

/-- Everything an accepted `TX_BUILD` can have done (R123). -/
theorem buildPushed_ok {s t : State} (h : buildPushed s = .ok t) :
    (s.tcnt.toNat = 256 ∧ t = s.recordStatus .payloadTooLarge none) ∨
    (s.tcnt.toNat = 0 ∧ t = s.recordStatus .emptyPayload none) ∨
    (1 ≤ s.tcnt.toNat ∧ s.tcnt.toNat ≤ 255 ∧
      t = (s.queueFrame (frameOf (s.prefixOf .tbuf s.tcnt.toNat))).recordStatus .ok
        (some (frameOf (s.prefixOf .tbuf s.tcnt.toNat)))) := by
  unfold buildPushed at h
  split at h
  · exact .inl ⟨‹_›, by cases h; rfl⟩
  · split at h
    · exact .inr (.inl ⟨‹_›, by cases h; rfl⟩)
    · split at h
      · next p hp =>
        obtain ⟨hle, rfl⟩ := memReadPrefix_ok hp
        simp only [Config.bufBytes] at hle
        rw [buildFrame_of_fits (by simp; omega) (by simpa using hle)] at h
        exact .inr (.inr ⟨by omega, hle, by cases h; rfl⟩)
      · cases h

/-- A `TX_BUILD` on a count in its range answers. -/
theorem buildPushed_of_count {s : State} (h : s.tcnt.toNat ≤ 256) : ∃ t, buildPushed s = .ok t := by
  unfold buildPushed
  split
  · exact ⟨_, rfl⟩
  · split
    · exact ⟨_, rfl⟩
    · rw [memReadPrefix, if_pos (by simp only [Config.bufBytes]; omega)]
      exact ⟨_, rfl⟩

/-- Everything a `TX_PUSH` that goes on can have done. -/
theorem execTxPush_next {b : Byte} {s t : State} (h : execTxPush b s = .next t) :
    (s.txReady = true ∧ pushByte b s = .ok t) ∨ (s.txReady = false ∧ t = s) := by
  unfold execTxPush at h
  split at h
  · exact .inl ⟨‹_›, orFault_next h⟩
  · exact .inr ⟨Bool.eq_false_iff.2 ‹_›, by cases h; rfl⟩

/-- Everything a `TX_BUILD` that goes on can have done. -/
theorem execTxBuild_next {s t : State} (h : execTxBuild s = .next t) :
    (s.txReady = true ∧ buildPushed s = .ok t) ∨ (s.txReady = false ∧ t = s) := by
  unfold execTxBuild at h
  split at h
  · exact .inl ⟨‹_›, orFault_next h⟩
  · exact .inr ⟨Bool.eq_false_iff.2 ‹_›, by cases h; rfl⟩

/-! ## Observations and the abstract parser -/

/-- An operation without an observation leaves the record alone (R11). -/
theorem exec_obs_of_no_observation {i : Instr} {s t : State} (hi : hasObservation i = false)
    (h : exec i s = .next t) : t.obs = s.obs := by
  cases i with
  | rxByte b => cases hi
  | txBuild => cases hi
  | nop => cases h; rfl
  | crcInit => cases h; rfl
  | crcByte b => cases h; rfl
  | txPush b =>
    rcases execTxPush_next h with ⟨-, hp⟩ | ⟨-, rfl⟩
    · rcases pushByte_ok hp with ⟨-, rfl⟩ | ⟨-, rfl⟩ | ⟨-, rfl⟩ <;> rfl
    · rfl
  | _ => cases h

@[simp] theorem declaredLength_val (b : Byte) : (declaredLength b).val = b.toNat := rfl

/-- The abstract state of a phase (R38). -/
theorem parserView_of_code {s : State} {ph : Phase} (h : s.pst = ph.code) :
    s.parserView =
      match ph with
      | .h1 => some .h1
      | .h2 => some .h2
      | .len => some .len
      | .pay => some (.pay (declaredLength s.plen) (s.prefixOf .pbuf s.pcnt.toNat))
      | .crch => some (.crch (s.prefixOf .pbuf s.plen.toNat))
      | .crcl => some (.crcl (s.prefixOf .pbuf s.plen.toNat) s.pcrch) := by
  have hp : phaseOf s.pst = some ph := by rw [h, phaseOf_code]
  cases ph <;> simp only [State.parserView, hp]

/-! ## Sequences -/

@[simp] theorem runInstrs_nil (s : State) : runInstrs [] s = .next s := rfl

theorem runInstrs_cons_of_next {i : Instr} {is : List Instr} {s t : State} (h : exec i s = .next t) :
    runInstrs (i :: is) s = runInstrs is t := by
  simp only [runInstrs, h]

theorem runInstrs_cons_next {i : Instr} {is : List Instr} {s u : State}
    (h : runInstrs (i :: is) s = .next u) : ∃ t, exec i s = .next t ∧ runInstrs is t = .next u := by
  unfold runInstrs at h
  split at h
  · exact ⟨_, ‹_›, h⟩
  · cases h
  · cases h

theorem runInstrs_append_of_next {is js : List Instr} {s t : State} (h : runInstrs is s = .next t) :
    runInstrs (is ++ js) s = runInstrs js t := by
  induction is generalizing s with
  | nil => simp only [runInstrs_nil] at h; cases h; rfl
  | cons i is ih =>
    obtain ⟨u, hu, hr⟩ := runInstrs_cons_next h
    rw [List.cons_append, runInstrs_cons_of_next hu, ih hr]

/-- A property that every operation keeps is kept by a sequence of them. -/
theorem runInstrs_keeps {P : State → Prop} (hP : ∀ i s t, P s → exec i s = .next t → P t)
    {is : List Instr} {s t : State} (hs : P s) (h : runInstrs is s = .next t) : P t := by
  induction is generalizing s with
  | nil => simp only [runInstrs_nil] at h; cases h; exact hs
  | cons i is ih =>
    obtain ⟨u, hu, hr⟩ := runInstrs_cons_next h
    exact ih (hP i s u hs hu) hr

/-! ## Edges and steps -/

theorem drainAfter_next {r : Out} {t : State} (h : drainAfter r = .next t) :
    ∃ u, r = .next u ∧ t = u.sendAll := by
  unfold drainAfter at h
  split at h
  · exact ⟨_, rfl, by cases h; rfl⟩
  · cases h
  · cases h

/-- Everything one accepted operation can have done. -/
theorem transact_next {i : Instr} {s t : State} (h : transact i s = .next t) :
    (needsTxReady i = true ∧ ∃ u, exec i s.sendAll = .next u ∧ t = u.sendAll) ∨
    (needsTxReady i = false ∧ exec i s = .next t) := by
  unfold transact at h
  split at h
  · exact .inl ⟨‹_›, drainAfter_next h⟩
  · exact .inr ⟨Bool.eq_false_iff.2 ‹_›, h⟩

/-- Everything one edge can have done. -/
theorem clockEdge_next {p : InPorts} {s t : State} (h : clockEdge p s = .next t) :
    (p.rst = true ∧ t = s.tick.resetEdge) ∨
    (p.rst = false ∧ runWords (acceptedWords p s) (handshake p s.tick) = .next t) := by
  unfold clockEdge at h
  split at h
  · exact .inl ⟨‹_›, by cases h; rfl⟩
  · exact .inr ⟨Bool.eq_false_iff.2 ‹_›, h⟩

theorem handshake_cases (p : InPorts) (s : State) :
    handshake p s = s ∨ (s.txBusy = true ∧ p.txOutReady = true ∧ handshake p s = s.sendByte) := by
  unfold handshake
  split
  · next h => simp only [Bool.and_eq_true] at h; exact .inr ⟨h.1, h.2, rfl⟩
  · exact .inl rfl

/-- Everything a step can have done: an idle edge, one operation word, or one edge. -/
theorem step_next {s t : State} (h : step s = .next t) :
    (s.inputs = [] ∧ clockEdge {} s = .next t) ∨
    (∃ w rest, s.inputs = .word w :: rest ∧ transact (decode w) s.popInput.tick = .next t) ∨
    (∃ p rest, s.inputs = .edge p :: rest ∧ clockEdge p s.popInput = .next t) := by
  unfold step at h
  split at h
  · exact .inl ⟨‹_›, h⟩
  · exact .inr (.inl ⟨_, _, ‹_›, h⟩)
  · exact .inr (.inr ⟨_, _, ‹_›, h⟩)

/-! ## Decoding -/

@[simp] theorem opField_opWord (op : BitVec 4) (d : Byte) : opField (opWord op d) = op := by
  unfold opField opWord; exact BitVec.extractLsb'_append_eq_left

@[simp] theorem dataField_opWord (op : BitVec 4) (d : Byte) : dataField (opWord op d) = d := by
  unfold dataField opWord; exact BitVec.extractLsb'_append_eq_right

end Sys2Proof.Machine
end

