-- ==== Sys2Proof/Laws/PerInstr.lean ====
section
/-!
SUPPORT. A law of the instruction as syntax, stated per instruction: its word carries the `match` value
of its row of spec/opcode_table.json in the bits of the row's `mask` 0xF00.
-/

namespace Sys2Proof.Laws

/-- The `match` value of the row of spec/opcode_table.json. -/
def rowMatch : Instr → OpWord
  | .nop => 0x000
  | .rxByte _ => 0x100
  | .crcInit => 0x200
  | .crcByte _ => 0x300
  | .txPush _ => 0x400
  | .txBuild => 0x500
  | .reserved6 => 0x600
  | .reserved7 => 0x700
  | .reserved8 => 0x800
  | .reserved9 => 0x900
  | .reservedA => 0xA00
  | .reservedB => 0xB00
  | .reservedC => 0xC00
  | .reservedD => 0xD00
  | .reservedE => 0xE00
  | .reservedF => 0xF00

/-- The encoded word lies in its row of the table. -/
def EncodesInRow.Statement (i : Instr) : Prop := encode i &&& 0xF00#12 = rowMatch i

theorem EncodesInRow.nop : EncodesInRow.Statement .nop := by
  unfold EncodesInRow.Statement; decide
theorem EncodesInRow.rxByte (b : Byte) : EncodesInRow.Statement (.rxByte b) := by
  revert b; unfold EncodesInRow.Statement; decide
theorem EncodesInRow.crcInit : EncodesInRow.Statement .crcInit := by
  unfold EncodesInRow.Statement; decide
theorem EncodesInRow.crcByte (b : Byte) : EncodesInRow.Statement (.crcByte b) := by
  revert b; unfold EncodesInRow.Statement; decide
theorem EncodesInRow.txPush (b : Byte) : EncodesInRow.Statement (.txPush b) := by
  revert b; unfold EncodesInRow.Statement; decide
theorem EncodesInRow.txBuild : EncodesInRow.Statement .txBuild := by
  unfold EncodesInRow.Statement; decide
theorem EncodesInRow.reserved6 : EncodesInRow.Statement .reserved6 := by
  unfold EncodesInRow.Statement; decide
theorem EncodesInRow.reserved7 : EncodesInRow.Statement .reserved7 := by
  unfold EncodesInRow.Statement; decide
theorem EncodesInRow.reserved8 : EncodesInRow.Statement .reserved8 := by
  unfold EncodesInRow.Statement; decide
theorem EncodesInRow.reserved9 : EncodesInRow.Statement .reserved9 := by
  unfold EncodesInRow.Statement; decide
theorem EncodesInRow.reservedA : EncodesInRow.Statement .reservedA := by
  unfold EncodesInRow.Statement; decide
theorem EncodesInRow.reservedB : EncodesInRow.Statement .reservedB := by
  unfold EncodesInRow.Statement; decide
theorem EncodesInRow.reservedC : EncodesInRow.Statement .reservedC := by
  unfold EncodesInRow.Statement; decide
theorem EncodesInRow.reservedD : EncodesInRow.Statement .reservedD := by
  unfold EncodesInRow.Statement; decide
theorem EncodesInRow.reservedE : EncodesInRow.Statement .reservedE := by
  unfold EncodesInRow.Statement; decide
theorem EncodesInRow.reservedF : EncodesInRow.Statement .reservedF := by
  unfold EncodesInRow.Statement; decide

end Sys2Proof.Laws
end

