-- ==== Sys2Proof/Tests/Slice0.lean ====
section
/-!
SUPPORT. The model's own tests. Expected values are the spec's: 95_test_vectors.md, the examples and
corner cases of the operation rules, the encodings of R81 and R82. The theorems `witness_…` show that
the hypotheses of a statement are met, clause by clause at the ends of a range.
-/

namespace Sys2Proof.Tests

open Sys2Proof.Machine

/-- The next state of an outcome, for `decide`. -/
def nextOf : Out → Option State
  | .next s => some s
  | .fault _ => none
  | .refused _ => none

/-- An outcome whose next state has a property. -/
theorem exists_next {o : Out} (P : State → Prop) [DecidablePred P]
    (h : (nextOf o).any (fun t => decide (P t)) = true) : ∃ t, o = .next t ∧ P t := by
  cases o with
  | next t => exact ⟨t, rfl, by simpa [nextOf] using h⟩
  | fault _ => simp [nextOf] at h
  | refused _ => simp [nextOf] at h

/-- Does the outcome refuse with this reason? -/
def refusedWith (r : Refusal) : Out → Bool
  | .refused q => decide (q = r)
  | .next _ => false
  | .fault _ => false

/-- A state in the middle of the frame `47 54 02 01 …` with something in every other function. -/
def midFrame : State :=
  { State.reset with
    pst := 3, plen := 2, pcnt := 1, pbuf := [(0, 0x01)], rout := .needMore
    rlen := 1, rbuf := [(0, 0x09)], rvalid := true, gcrc := 0x29B1, tcnt := 1, tbuf := [(0, 0x05)] }

/-- R140's example: the low CRC byte of `47 54 02 01 02 0E 7C` is awaited. -/
def awaitCrcLo : State :=
  { State.reset with pst := 5, plen := 2, pcnt := 2, pbuf := [(0, 0x01), (1, 0x02)], pcrch := 0x0E }

/-- A frame of two bytes is being sent. -/
def sending : State := { State.reset with txq := [0x47, 0x54] }

/-- `midFrame` with these inputs pending. -/
def given (is : List Input) : State := { midFrame with inputs := is }

/-! ## WellFormed: an ill-formed term for each check -/

theorem test_wf_refuses_reserved : Instr.wf .reserved6 = false ∧ Instr.wf .reservedF = false := by decide
theorem test_wf_refuses_operand_256 :
    AsmOp.wf (.rxByte 256) = false ∧ AsmOp.wf (.crcByte 256) = false ∧ AsmOp.wf (.txPush 256) = false ∧
    AsmOp.wf (.txFrame [1, 256]) = false ∧ AsmOp.wf (.rxSeq [256]) = false := by decide
theorem test_wf_refuses_long_rx_frame : AsmOp.wf (.rxFrame (List.replicate 256 0)) = false := by decide +kernel
theorem test_wf_refuses_empty_sequence :
    AsmOp.wf (.rxSeq []) = false ∧ AsmOp.wf (.crcSeq []) = false := by decide

/-! ## Decoding: words written out from R81 and R82 -/

theorem test_decode_nop : decode 0b000010101011#12 = .nop := by decide
theorem test_decode_rxByte : decode 0b000101000111#12 = .rxByte 0x47 := by decide
theorem test_decode_crcInit : decode 0b001000000000#12 = .crcInit := by decide
theorem test_decode_crcByte : decode 0b001100000001#12 = .crcByte 0x01 := by decide
theorem test_decode_txPush : decode 0b010010000001#12 = .txPush 0x81 := by decide
theorem test_decode_txBuild : decode 0b010110101011#12 = .txBuild := by decide
theorem test_decode_reserved6 : decode 0b011011111111#12 = .reserved6 := by decide
theorem test_decode_reserved7 : decode 0b011100000000#12 = .reserved7 := by decide
theorem test_decode_reserved8 : decode 0b100000000001#12 = .reserved8 := by decide
theorem test_decode_reserved9 : decode 0b100100000000#12 = .reserved9 := by decide
theorem test_decode_reservedA : decode 0b101000000000#12 = .reservedA := by decide
theorem test_decode_reservedB : decode 0b101100000000#12 = .reservedB := by decide
theorem test_decode_reservedC : decode 0b110010000000#12 = .reservedC := by decide
theorem test_decode_reservedD : decode 0b110100000000#12 = .reservedD := by decide
theorem test_decode_reservedE : decode 0b111000000000#12 = .reservedE := by decide
theorem test_decode_reservedF : decode 0b111111111111#12 = .reservedF := by decide
theorem test_decodeTableWord : decodeTableWord 16 0x147 = some (.rxByte 0x47) ∧
    decodeTableWord 16 0x1147 = none := by decide
theorem test_encode_canonical : encode .nop = 0x000 ∧ encode .txBuild = 0x500 ∧
    encode (.txPush 0xFF) = 0x4FF := by decide

/-! ## The CRC: 95_test_vectors.md 2.1 to 2.3 -/

theorem test_crcUpdate_vectors : crcUpdate 0xFFFF 0x01 = 0xF1D1 ∧ crcUpdate 0x1234 0x56 = 0x3C40 := by
  decide +kernel
theorem test_crc16_of_01_47_54_02 : crc16 [0x01, 0x47, 0x54, 0x02] = 0x8870 := by decide +kernel
theorem test_crcTable_entries : crcTable 0xAB = 0x0481 ∧ crcTable 0xFF = 0x1EF0 := by decide

/-! ## One step of each instruction -/

/-- P-15: a NOP with data 0xFF, in the middle of a frame. -/
theorem test_nop_keeps_frame : (nextOf (step (given [.word 0x0FF]))).map (fun t => (t.pst, t.pcnt)) =
    some (3, 1) := by decide
/-- R140's example. -/
theorem test_rxByte_completes : (nextOf (exec (.rxByte 0x7C) awaitCrcLo)).map
    (fun t => (t.rout, t.pst, t.rlen, t.resultView)) =
    some (.complete, 0, 2, some [0x01, 0x02]) := by decide +kernel
/-- P-07. -/
theorem test_rxByte_resyncs : (nextOf (exec (.rxByte 0x7D) awaitCrcLo)).map
    (fun t => (t.rout, t.pst, t.rvalid)) = some (.resync, 0, false) := by decide +kernel
/-- Section 2.4. -/
theorem test_crcInit : (nextOf (exec .crcInit midFrame)).map State.gcrc = some 0xFFFF := by decide
theorem test_crcByte : (nextOf (exec (.crcByte 0xFF) State.reset)).map State.gcrc = some 0xFF00 := by
  decide +kernel
theorem test_txPush_stores : (nextOf (exec (.txPush 0x02) midFrame)).map
    (fun t => (t.tcnt, t.prefixOf .tbuf 2)) = some (2, [0x05, 0x02]) := by decide
/-- 255 pushes, then the 256th (section 3.1). -/
theorem test_txPush_saturates :
    (nextOf (exec (.txPush 0x02) { midFrame with tcnt := 255 })).map State.tcnt = some 256 ∧
    (nextOf (exec (.txPush 0x02) { midFrame with tcnt := 256 })).map State.tcnt = some 256 := by decide
/-- R123's example. -/
theorem test_txBuild_queues :
    (nextOf (exec .txBuild { State.reset with tcnt := 2, tbuf := [(0, 0x01), (1, 0x02)] })).map
      (fun t => (t.txq, t.tstat, t.tcnt)) =
    some ([0x47, 0x54, 0x02, 0x01, 0x02, 0x0E, 0x7C], .ok, 0) := by decide +kernel
theorem test_txBuild_too_large : (nextOf (exec .txBuild { midFrame with tcnt := 256 })).map
    (fun t => (t.txq, t.tstat, t.tcnt)) = some ([], .payloadTooLarge, 0) := by decide
theorem test_reserved_refused : refusedWith (.reservedOperation 6) (step (given [.word 0x6FF])) = true ∧
    refusedWith (.reservedOperation 15) (step (given [.word 0xF00])) = true := by decide

/-! ## Steps and edges -/

theorem test_first_step_runs_placed_word :
    (nextOf (step (State.reset.withFetchWord 16 0x147))).map (fun t => (t.pst, t.rout)) =
    some (1, .needMore) := by decide
/-- R85: `crc_init` with `crc_valid`, and `tx_push` with `tx_build`, at one edge. -/
theorem test_edge_order :
    (nextOf (step { State.reset with gcrc := 0, inputs := [.edge
      { crcInit := true, crcValid := true, crcData := 0x01, txPush := true, txBuild := true,
        txData := 0x01 }] })).map (fun t => (t.gcrc, t.txq, t.tcnt)) =
    some (0xF1D1, [0x47, 0x54, 0x01, 0x01, 0xF1, 0xD1], 0) := by decide
/-- R230: reset wins over an offered byte. -/
theorem test_reset_edge_wins :
    (nextOf (step (given [.edge { rst := true, rxValid := true, rxData := 0x47 }]))).map
      (fun t => (t.pst, t.rvalid, t.gcrc)) = some (0, false, 0xFFFF) := by decide
/-- R238: a request offered while a frame is sent is not accepted; one byte leaves. -/
theorem test_busy_edge :
    (nextOf (step { sending with inputs := [.edge { txPush := true, txData := 0x01, txOutReady := true }] })).map
      (fun t => (t.tcnt, t.txq, t.txout)) = some (0, [0x54], [0x47]) := by decide
/-- R89: `RX_FRAME` with no operand. -/
theorem test_assemble_rx_frame_empty :
    assembleLine nameRxFrame = some [0x147, 0x154, 0x100, 0x1FF, 0x1FF] := by decide
/-- R88: `TX_PUSH 0x01 ;x` in text. -/
theorem test_assemble_tx_push :
    assembleLine (nameTxPush ++ [' ', '0', 'x', '0', '1', ' ', ';', 'x']) = some [0x401] := by decide

/-! ## Witnesses of the statements' hypotheses -/

theorem witness_InstructionSurvivesWordAndText :
    Instr.wf (.rxByte 0xFF) = true ∧ Instr.wf .reservedA = false := by decide
theorem witness_OperandOutOfRangeIsAssemblyError : 255 ≤ 255 ∧ 255 < 256 := by decide
theorem witness_PseudoInstructionsExpand :
    (List.replicate 255 (0 : Byte)).length ≤ 255 ∧ ([0x01] : List Byte) ≠ [] := by decide +kernel
theorem witness_CrcUpdateIsLinearWithGivenEquations : 0 < 16 ∧ 15 < 16 := by decide
theorem witness_CrcIsAffineAndDetectsSingleBit :
    ([0x01] : List Byte).length = ([0x02] : List Byte).length ∧
    0 < ([0x01] : List Byte).length ∧ 7 < 8 ∧ 0 < 1 := by decide
theorem witness_RxByteInAwaitHeader1 : State.reset.pst = 0 := by decide
theorem witness_RxByteInAwaitHeader2 : ({ State.reset with pst := 1 } : State).pst = 1 := by decide
theorem witness_RxByteInAwaitLength : ({ State.reset with pst := 2 } : State).pst = 2 := by decide
theorem witness_RxByteInAwaitPayload : ∀ s ∈ [midFrame, { midFrame with plen := 1, pcnt := 0 },
    { midFrame with plen := 255, pcnt := 254 }], s.pst = 3 ∧ s.pcnt.toNat < s.plen.toNat := by decide
theorem witness_RxByteInAwaitCrcHi : ({ midFrame with pst := 4 } : State).pst = 4 := by decide
theorem witness_RxByteInAwaitCrcLo_match : awaitCrcLo.pst = 5 ∧
    awaitCrcLo.pcrch ++ (0x7C : Byte) = crc16 (awaitCrcLo.prefixOf .pbuf awaitCrcLo.plen.toNat) := by
  decide +kernel
theorem witness_RxByteInAwaitCrcLo_mismatch : awaitCrcLo.pst = 5 ∧
    awaitCrcLo.pcrch ++ (0x7D : Byte) ≠ crc16 (awaitCrcLo.prefixOf .pbuf awaitCrcLo.plen.toNat) := by
  decide +kernel
theorem witness_TerminalOutcomeClearsParser :
    (∃ t, exec (.rxByte 0x7D) awaitCrcLo = .next t ∧ t.rout = .resync) ∧
    ∃ t, exec (.rxByte 0x7C) awaitCrcLo = .next t ∧ t.rout = .complete :=
  ⟨exists_next (fun t => t.rout = .resync) (by decide +kernel),
   exists_next (fun t => t.rout = .complete) (by decide +kernel)⟩
theorem witness_NoHeaderScanInsideFrame :
    3 ≤ midFrame.pst.toNat ∧ ∃ t, exec (.rxByte 0x47) midFrame = .next t := ⟨by decide, _, rfl⟩
theorem witness_RxByteFrame :
    (∃ t, exec (.rxByte 0x47) midFrame = .next t ∧ midFrame.pst = 3 ∧ t.rout ≠ .complete) ∧
    ∃ t, exec (.rxByte 0x7C) awaitCrcLo = .next t ∧ awaitCrcLo.pst ≠ 3 :=
  ⟨⟨_, rfl, by decide, by decide⟩, exists_next (fun _ => awaitCrcLo.pst ≠ 3) (by decide +kernel)⟩

/-- A state in the middle of everything has the invariant. -/
theorem test_midFrame_invariant : Invariant midFrame where
  accumulators := by decide
  payloadHeld := by unfold Memory.writtenTo; decide
  resultHeld := by unfold Memory.writtenTo; decide
  resultAbsent := by decide
  completeHeld := by decide
  pushCount := by decide
  pushedHeld := by unfold Memory.writtenTo; decide
  queueBound := by decide
  buffersCanonical := by intro sp; cases sp <;> decide
  buffersInRange := by intro sp; cases sp <;> decide

theorem witness_RxByteRefinesTransitionTable :
    Invariant midFrame ∧ midFrame.parserView = some (.pay 2 [0x01]) :=
  ⟨test_midFrame_invariant, by decide⟩
theorem witness_SumTypeEquivalentToRegisters : Invariant midFrame ∧
    ∀ ps ∈ [.pay 255 (List.replicate 254 0), .pay 1 [], .crch (List.replicate 255 0), .crcl [] 0xFF],
      ParserState.lengthsOk ps = true :=
  ⟨test_midFrame_invariant, by decide +kernel⟩
theorem witness_RxByteCompletesInBoundedStorage : Invariant midFrame := test_midFrame_invariant
theorem witness_BuiltFrameIsReceived : State.reset.pst = 0 ∧
    ∀ p ∈ [[(0x47 : Byte)], List.replicate 255 0x54], 1 ≤ p.length ∧ p.length ≤ 255 := by decide +kernel
theorem witness_ZeroLengthFrameIsReceived : State.reset.pst = 0 := by decide
theorem witness_SingleBitCorruptionResyncs : State.reset.pst = 0 ∧ ([] : List Byte).length ≤ 255 ∧
    3 ≤ 3 ∧ 3 < (frameOf []).length ∧ 4 < (frameOf []).length ∧ 0 < 8 ∧ 7 < 8 := by decide
theorem witness_CompletedPayloadWasFramed :
    ∃ t, State.reset.pst = 0 ∧ frameOf [] ≠ [] ∧ runInstrs (rxBytes (frameOf [])) State.reset = .next t ∧
      t.obs.getLast? = some (.rx .complete (some [])) :=
  ⟨_, by decide, by decide, rfl, by decide⟩
theorem witness_StrayHeaderByteLosesFrame : State.reset.pst = 0 := by decide
theorem witness_ResultKeptForFourBytes : State.reset.pst = 0 ∧
    ([0x47, 0x54, 0x00, 0xFF] : List Byte).length ≤ 4 ∧
    ∃ t, runInstrs (rxBytes [0x47, 0x54, 0x00, 0xFF]) State.reset = .next t :=
  ⟨by decide, by decide, _, rfl⟩
theorem witness_BuildFrameGivesFrameOrError :
    255 < (List.replicate 256 (0 : Byte)).length ∧ ([] : List Byte).length = 0 ∧
    (∀ p ∈ [[(0 : Byte)], List.replicate 255 0], 1 ≤ p.length ∧ p.length ≤ 255) := by decide +kernel
theorem witness_FrameLayoutByOffset : (List.replicate 255 (0 : Byte)).length ≤ 255 ∧
    254 < (List.replicate 255 (0 : Byte)).length := by decide +kernel
theorem witness_TxPushAppendsOrSaturates : midFrame.txq = [] ∧
    (∀ n ∈ [(0 : BitVec 9), 254], n.toNat ≤ 254) ∧ (255 : BitVec 9).toNat = 255 ∧
    (256 : BitVec 9).toNat = 256 := by decide
theorem witness_TxBuildFramesPushedPayload : midFrame.txq = [] ∧ (256 : BitVec 9).toNat = 256 ∧
    (0 : BitVec 9).toNat = 0 ∧ (∀ n ∈ [(1 : BitVec 9), 255], 1 ≤ n.toNat ∧ n.toNat ≤ 255) := by decide
theorem witness_TxOperationsWaitWhileBusy : sending.txq ≠ [] := by decide
theorem witness_TxBuild_twice : ∃ t, midFrame.txq = [] ∧ midFrame.tcnt.toNat = 1 ∧
    exec .txBuild midFrame = .next t := ⟨_, rfl, by decide, rfl⟩
theorem witness_TxRequests_busy : sending.txq ≠ [] ∧ opWord 0x0 0x00 ∈ acceptedWords {} sending := by
  decide +kernel
theorem witness_CrcInitRestartsGenerator_edge :
    (given [.edge { crcInit := true, crcValid := true, crcData := 0x01 }]).inputs =
      [.edge { crcInit := true, crcValid := true, crcData := 0x01 }] := by decide
theorem witness_NopChangesNothing_ports : ({ txOutReady := true } : InPorts).rxValid = false ∧
    ({ txOutReady := true } : InPorts).txBuild = false := by decide
theorem witness_DecodingFollowsOpField : 6 ≤ (opField 0x600).toNat ∧ 6 ≤ (opField 0xFFF).toNat := by
  decide +kernel
theorem witness_PushSequenceThenBuild : State.reset.tcnt = 0 ∧ State.reset.txq = [] ∧
    (∀ p ∈ [[(0 : Byte)], List.replicate 255 0], 1 ≤ p.length ∧ p.length ≤ 255) ∧
    ([] : List Byte).length = 0 ∧ 256 ≤ (List.replicate 256 (0 : Byte)).length := by decide +kernel
theorem witness_TxOperationsFrame : (∃ t, exec (.txPush 0x02) midFrame = .next t) ∧
    ∃ t, exec .txBuild midFrame = .next t := ⟨⟨_, rfl⟩, _, rfl⟩
theorem witness_ReservedWordsAreRefused : 6 ≤ (6 : BitVec 4).toNat ∧ 6 ≤ (15 : BitVec 4).toNat ∧
    (given [.word (opWord 6 0xFF)]).inputs = .word (opWord 6 0xFF) :: [] ∧
    opWord 0x0 0x00 ∈ acceptedWords {} State.reset := by decide
theorem witness_OnlyTwoRefusals : ({ State.reset with pst := 6 } : State).pst = 6 ∧
    exec .reserved6 State.reset = .refused (.reservedOperation 6) ∧
    exec (.rxByte 0x47) { State.reset with pst := 7 } = .refused .illegalParserState ∧
    midFrame.pst ≠ 6 ∧ midFrame.pst ≠ 7 ∧ ∃ t, exec (.rxByte 0x47) midFrame = .next t :=
  ⟨by decide, rfl, rfl, by decide, by decide, _, rfl⟩
theorem witness_GroupsWrittenByOwnFunction : (∃ t, exec (.rxByte 0x47) midFrame = .next t) ∧
    (∃ t, exec .crcInit midFrame = .next t) ∧ (∃ t, exec .txBuild midFrame = .next t) ∧
    groupOf (.rxByte 0x47) ≠ .generator ∧ groupOf .crcInit ≠ .builder ∧ groupOf .txBuild ≠ .parser :=
  ⟨⟨_, rfl⟩, ⟨_, rfl⟩, ⟨_, rfl⟩, by decide, by decide, by decide⟩
theorem witness_DifferentFunctionsCommute :
    groupOf (.rxByte 0x47) ≠ groupOf .txBuild ∧ groupOf .crcInit ≠ groupOf .txBuild ∧
    (∃ t, runInstrs [.rxByte 0x47, .txBuild] midFrame = .next t) ∧
    (∃ t, runInstrs [.crcInit, .txBuild] midFrame = .next t) ∧ hasObservation .crcInit = false :=
  ⟨by decide, by decide, ⟨_, rfl⟩, ⟨_, rfl⟩, rfl⟩
theorem witness_StatusRegistersWrittenByOwnOperation :
    (∃ t, exec .crcInit midFrame = .next t) ∧ groupOf .crcInit ≠ .parser ∧ Instr.crcInit ≠ .txBuild ∧
    (∃ t, exec (.rxByte 0x47) midFrame = .next t) ∧ midFrame.txq = [] ∧
    ∃ t, exec .txBuild midFrame = .next t :=
  ⟨⟨_, rfl⟩, by decide, by decide, ⟨_, rfl⟩, rfl, _, rfl⟩
theorem witness_StepRunsDecodedWord :
    (given [.word 0x147]).inputs = .word 0x147 :: [] ∧ (∀ b, decode 0x147 ≠ .txPush b) ∧
    decode 0x147 ≠ .txBuild ∧ (∃ b, decode 0x401 = .txPush b) ∧ decode 0x500 = .txBuild ∧
    (∃ t, exec (decode 0x500) { given [] with draws := 1, txq := [], txout := [] } = .next t) ∧
    ∃ f, exec (decode 0x500) { given [] with tcnt := 257, txq := [], txout := [] } = .fault f :=
  ⟨rfl, fun _ h => Instr.noConfusion h, by decide, ⟨_, rfl⟩, rfl, ⟨_, rfl⟩, _, rfl⟩
theorem witness_PlacedWordIsNextStep : ∃ t, transact .txBuild (State.tick midFrame) = .next t := ⟨_, rfl⟩
theorem witness_StepWithoutInputIsIdle : State.reset.inputs = [] := rfl
theorem witness_ResetEdgeRestoresResetValues :
    (given [.edge { rst := true }]).inputs = .edge { rst := true } :: [] := rfl
theorem witness_EdgeAcceptsEventsInOrder :
    ({ sending with inputs := [.edge { txPush := true }] } : State).inputs = .edge { txPush := true } :: [] ∧
    ({ txPush := true } : InPorts).rst = false := ⟨rfl, rfl⟩
theorem witness_BusyEdgeOnlySends : ∃ t, sending.txq = 0x47 :: [0x54] ∧
    (∀ r : Bool, ({ txOutReady := r } : InPorts).rst = false) ∧
    step { sending with inputs := [.edge { txOutReady := true }] } = .next t ∧
    ∃ u, step { sending with inputs := [.edge { txOutReady := false }] } = .next u :=
  ⟨_, rfl, by decide, rfl, _, rfl⟩
theorem witness_ReadyEdgesDrainQueueInOrder : 2 ≤ sending.txq.length ∧
    ({ sending with inputs := [.edge { txOutReady := true }, .edge { txOutReady := true }] } : State).inputs =
      List.replicate 2 (.edge { txOutReady := true }) := by decide
theorem witness_StrobesPulseForOneCycle :
    ∃ t, step (given [.edge { rxValid := true, txBuild := true }]) = .next t := ⟨_, rfl⟩
theorem witness_ResultReadsAreStable : ∃ t, midFrame.rvalid = true ∧ (0 : Byte).toNat < midFrame.rlen.toNat ∧
    step (given [.word 0x147]) = .next t ∧ (given [.word 0x147]).resetNext = false ∧
    observedBetween (given [.word 0x147]) t = [.rx .needMore none] :=
  ⟨_, rfl, by decide, rfl, rfl, by decide⟩
theorem witness_PortsShowRegisters : sending.txq = 0x47 :: [0x54] ∧ midFrame.rvalid = true ∧
    (0 : Byte).toNat < midFrame.rlen.toNat := by decide
theorem witness_TransmittedStreamIsFramesInBuildOrder :
    ∃ t, (given [.word 0x500]).resetNext = false ∧ step (given [.word 0x500]) = .next t := ⟨_, rfl, rfl⟩
theorem witness_InvariantKeptByStep : Invariant midFrame ∧ ∃ t, step midFrame = .next t :=
  ⟨test_midFrame_invariant, _, rfl⟩
theorem witness_StepGoesOnUnlessReserved : Invariant midFrame := test_midFrame_invariant

end Sys2Proof.Tests
end

section
/-!
PROOFS, the scope (R11): which operation a step runs. First what the model's clock, decoder and
operations do with a pending word and with the pending inputs, then O45 and O46.
-/

namespace Sys2Proof.Machine

/-! ## Accepted operations -/

theorem needsTxReady_iff {i : Instr} :
    needsTxReady i = true ↔ (∃ b, i = .txPush b) ∨ i = .txBuild := by
  cases i <;> simp [needsTxReady]

theorem transact_of_not_needsTxReady {i : Instr} (s : State) (hi : needsTxReady i = false) :
    transact i s = exec i s := by
  simp [transact, hi]

theorem transact_of_needsTxReady {i : Instr} (s : State) (hi : needsTxReady i = true) :
    transact i s = drainAfter (exec i s.sendAll) := by
  simp [transact, hi]

@[simp] theorem drainAfter_of_next (t : State) : drainAfter (.next t) = .next t.sendAll := rfl
@[simp] theorem drainAfter_of_fault (f : Fault) : drainAfter (.fault f) = .fault f := rfl

/-! ## The pending word -/

/-- A pending operation word is taken, and runs as one accepted operation (R11, log 1). -/
theorem step_of_word {s : State} {w : OpWord} {rest : List Input} (h : s.inputs = .word w :: rest) :
    step s = transact (decode w) { s.tick with inputs := rest } := by
  simp [step, State.popInput, State.tick, h]

/-- The decoder inverts the encoder on every instruction, the reserved ones included (R82, R86). -/
@[simp] theorem decode_encode (i : Instr) : decode (encode i) = i := by
  simp only [decode, encode, opField_opWord, dataField_opWord]
  cases i <;> rfl

/-- Sixteen bits hold every operation word, so that placing one loses none of its bits (log 19). -/
theorem withFetchWord_inputs (s : State) (w : OpWord) :
    (s.withFetchWord 16 w.toNat).inputs = .word w :: s.inputs := by
  have hw : w.toNat % 2 ^ 16 = w.toNat := Nat.mod_eq_of_lt (by omega)
  rw [State.withFetchWord, hw, BitVec.ofNat_toNat, BitVec.setWidth_eq]

/-- Placing a word changes nothing but the pending inputs. -/
theorem withFetchWord_tick_restore (s : State) (n w : Nat) :
    { (s.withFetchWord n w).tick with inputs := s.inputs } = s.tick := rfl

/-! ## No operation touches the pending inputs -/

@[simp] theorem State.setSpace_inputs (s : State) (sp : Space) (m : Memory) :
    (s.setSpace sp m).inputs = s.inputs := by
  cases sp <;> rfl

theorem deliver_inputs {p : List Byte} {s t : State} {o : RxOutcome} (h : deliver p s = .ok (t, o)) :
    t.inputs = s.inputs := by
  unfold deliver at h
  split at h
  · next u hw =>
    obtain ⟨-, rfl⟩ := memWritePrefix_ok hw
    cases h; simp
  · cases h

theorem feed_inputs {ph : Phase} {b : Byte} {s t : State} {o : RxOutcome}
    (h : feed ph b s = .ok (t, o)) : t.inputs = s.inputs := by
  cases ph with
  | h1 =>
    cases h
    split <;> simp
  | h2 =>
    cases h
    split <;> simp
  | len =>
    rw [feed, stepLen_eq] at h
    cases h; simp
  | pay =>
    rw [feed, stepPay_eq b (stepPay_ok h).1] at h
    cases h
    split <;> simp
  | crch => cases h; simp
  | crcl =>
    rw [feed, stepCrcLo_eq] at h
    split at h
    · simpa using deliver_inputs h
    · cases h; simp

theorem pushByte_inputs {b : Byte} {s t : State} (h : pushByte b s = .ok t) : t.inputs = s.inputs := by
  rcases pushByte_ok h with ⟨-, rfl⟩ | ⟨-, rfl⟩ | ⟨-, rfl⟩ <;> simp

theorem buildPushed_inputs {s t : State} (h : buildPushed s = .ok t) : t.inputs = s.inputs := by
  rcases buildPushed_ok h with ⟨-, rfl⟩ | ⟨-, rfl⟩ | ⟨-, -, rfl⟩ <;> simp

theorem exec_inputs {i : Instr} {s t : State} (h : exec i s = .next t) : t.inputs = s.inputs := by
  cases i with
  | nop => cases h; rfl
  | rxByte b =>
    obtain ⟨ph, u, o, -, hf, rfl⟩ := execRxByte_next h
    simpa using feed_inputs hf
  | crcInit => cases h; simp
  | crcByte b => cases h; simp
  | txPush b =>
    rcases execTxPush_next h with ⟨-, hp⟩ | ⟨-, rfl⟩
    · exact pushByte_inputs hp
    · rfl
  | txBuild =>
    rcases execTxBuild_next h with ⟨-, hb⟩ | ⟨-, rfl⟩
    · exact buildPushed_inputs hb
    · rfl
  | _ => cases h

theorem transact_inputs {i : Instr} {s t : State} (h : transact i s = .next t) :
    t.inputs = s.inputs := by
  rcases transact_next h with ⟨-, u, hu, rfl⟩ | ⟨-, hx⟩
  · simpa using exec_inputs hu
  · exact exec_inputs hx

/-! ## The obligations -/

/-- Settles O45: by `step_of_word` the step is `transact`, which drains around exactly the two
operations of `needsTxReady_iff`. -/
theorem stepRunsDecodedWord : Obligations.StepRunsDecodedWord := by
  unfold Obligations.StepRunsDecodedWord
  rintro s _ w rest hin rfl
  have hstep := step_of_word hin
  refine ⟨fun hpush hbuild => ?_, fun htx => ?_⟩
  · have hi : needsTxReady (decode w) = false := by
      simp [← Bool.not_eq_true, needsTxReady_iff, hpush, hbuild]
    exact hstep.trans (transact_of_not_needsTxReady _ hi)
  · rw [transact_of_needsTxReady _ (needsTxReady_iff.2 htx)] at hstep
    exact ⟨fun t ht => hstep.trans (congrArg drainAfter ht),
      fun f hf => hstep.trans (congrArg drainAfter hf)⟩

/-- Settles O46: the placed word decodes to its instruction, and no operation touches the inputs. -/
theorem placedWordIsNextStep : Obligations.PlacedWordIsNextStep := by
  unfold Obligations.PlacedWordIsNextStep
  refine fun i s => ⟨?_, fun t ht => (transact_inputs ht).trans s.tick_inputs⟩
  rw [step_of_word (withFetchWord_inputs s (encode i)), decode_encode, withFetchWord_tick_restore]

end Sys2Proof.Machine
end

section
/-!
PROOFS, the state (R20): what each operation writes and what it leaves alone. First what one parser step
can do and which registers an instruction writes; from these the frames O22, O37, O42 and O44.
-/

namespace Sys2Proof.Machine

/-! ## What one parser step can do -/

/-- The moves of the parser, one constructor per branch of R142 to R147: `FeedMove b s ph u o` says that
the byte `b` takes `s` from the parser state `ph` to `u` with outcome `o`. -/
inductive FeedMove (b : Byte) (s : State) : Phase → State → RxOutcome → Prop
  | header1Found : b = Config.hdr1 → FeedMove b s .h1 (s.goTo .h2) .needMore
  | header1Missed : b ≠ Config.hdr1 → FeedMove b s .h1 s .needMore
  | header2Found : b = Config.hdr2 → FeedMove b s .h2 (s.goTo .len) .needMore
  | header2Missed : b ≠ Config.hdr2 → FeedMove b s .h2 (s.goTo .h1) .needMore
  | zeroLength : b = 0 → FeedMove b s .len ((s.declareLength b).goTo .crch) .needMore
  | positiveLength : b ≠ 0 → FeedMove b s .len ((s.declareLength b).goTo .pay) .needMore
  | lastPayloadByte : s.pcnt.toNat < Config.bufBytes → s.pcnt + 1#8 = s.plen →
      FeedMove b s .pay
        ((s.setSpace .pbuf (s.pbuf.write s.pcnt.toNat b)).countPayloadByte.goTo .crch) .needMore
  | payloadByte : s.pcnt.toNat < Config.bufBytes → s.pcnt + 1#8 ≠ s.plen →
      FeedMove b s .pay (s.setSpace .pbuf (s.pbuf.write s.pcnt.toNat b)).countPayloadByte .needMore
  | crcHigh : FeedMove b s .crch ((s.storeCrcHi b).goTo .crcl) .needMore
  | crcMatch : crcPair s.pcrch b = crc16 (s.prefixOf .pbuf s.plen.toNat) →
      FeedMove b s .crcl
        ((s.parserClear.setSpace .rbuf
          (s.rbuf.writeFrom 0 (s.prefixOf .pbuf s.plen.toNat))).markResult s.plen.toNat) .complete
  | crcMismatch : crcPair s.pcrch b ≠ crc16 (s.prefixOf .pbuf s.plen.toNat) →
      FeedMove b s .crcl s.parserClear .resync

/-- Everything a parser step that answers can have done (R140). -/
theorem feedMove_of_feed {ph : Phase} {b : Byte} {s u : State} {o : RxOutcome}
    (h : feed ph b s = .ok (u, o)) : FeedMove b s ph u o := by
  cases ph with
  | h1 =>
    cases h
    split
    · exact .header1Found ‹_›
    · exact .header1Missed ‹_›
  | h2 =>
    cases h
    split
    · exact .header2Found ‹_›
    · exact .header2Missed ‹_›
  | len =>
    rw [feed, stepLen_eq] at h
    cases h
    split
    · exact .zeroLength ‹_›
    · exact .positiveLength ‹_›
  | pay =>
    have hi := (stepPay_ok h).1
    rw [feed, stepPay_eq b hi] at h
    cases h
    split
    · exact .lastPayloadByte hi ‹_›
    · exact .payloadByte hi ‹_›
  | crch => cases h; exact .crcHigh
  | crcl =>
    rw [feed, stepCrcLo_eq, deliver_eq _ (by simpa using plen_le_bufBytes s.plen),
      State.prefixOf_length] at h
    split at h
    · cases h; exact .crcMatch ‹_›
    · cases h; exact .crcMismatch ‹_›

/-- Everything an `RX_BYTE` that goes on can have done: one move, and its outcome recorded. -/
theorem exec_rxByte_move {b : Byte} {s t : State} (h : exec (.rxByte b) s = .next t) :
    ∃ ph u o, phaseOf s.pst = some ph ∧ FeedMove b s ph u o ∧ t = u.recordOutcome o := by
  obtain ⟨ph, u, o, hph, hf, ht⟩ := execRxByte_next h
  exact ⟨ph, u, o, hph, feedMove_of_feed hf, ht⟩

namespace FeedMove

variable {b : Byte} {s u : State} {ph : Phase} {o : RxOutcome}

/-- A move writes the parser and the result (R23 to R27, R29), and no other register. -/
theorem writes (h : FeedMove b s ph u o) :
    u = { s with
      pst := u.pst, plen := u.plen, pcnt := u.pcnt, pbuf := u.pbuf, pcrch := u.pcrch
      rlen := u.rlen, rbuf := u.rbuf, rvalid := u.rvalid } := by
  cases h <;> rfl

theorem outcome (h : FeedMove b s ph u o) : o = .needMore ∨ o = .resync ∨ o = .complete := by
  cases h <;> simp

/-- Only `COMPLETE` touches the result (R147, R148). -/
theorem result_of_not_complete (h : FeedMove b s ph u o) (ho : o ≠ .complete) :
    u.rlen = s.rlen ∧ u.rbuf = s.rbuf ∧ u.rvalid = s.rvalid := by
  cases h with
  | crcMatch => exact absurd rfl ho
  | _ => exact ⟨rfl, rfl, rfl⟩

theorem pbuf_of_not_pay (h : FeedMove b s ph u o) (hph : ph ≠ .pay) : u.pbuf = s.pbuf := by
  cases h with
  | lastPayloadByte => exact absurd rfl hph
  | payloadByte => exact absurd rfl hph
  | _ => rfl

theorem pbuf_of_pay (h : FeedMove b s .pay u o) : u.pbuf = s.pbuf.write s.pcnt.toNat b := by
  cases h <;> rfl

end FeedMove

/-! ## What each instruction writes -/

theorem SameParser.refl (s : State) : SameParser s s := ⟨rfl, rfl, rfl, rfl, rfl⟩
theorem SameResult.refl (s : State) : SameResult s s := ⟨rfl, rfl, rfl, rfl⟩
theorem SameBuilder.refl (s : State) : SameBuilder s s := ⟨rfl, rfl, rfl, rfl, rfl⟩

/-- `RX_BYTE` writes the parser, the result and its strobe, and adds its observation (R140). -/
theorem exec_rxByte_writes {b : Byte} {s t : State} (h : exec (.rxByte b) s = .next t) :
    t = { s with
      pst := t.pst, plen := t.plen, pcnt := t.pcnt, pbuf := t.pbuf, pcrch := t.pcrch
      rout := t.rout, rlen := t.rlen, rbuf := t.rbuf, rvalid := t.rvalid
      rxOutValid := true, obs := t.obs } := by
  obtain ⟨ph, u, o, -, hm, rfl⟩ := exec_rxByte_move h
  rw [hm.writes]
  rfl

/-- `TX_PUSH` writes `TBUF` and `TCNT` (R122). -/
theorem exec_txPush_writes {b : Byte} {s t : State} (h : exec (.txPush b) s = .next t) :
    t = { s with tbuf := t.tbuf, tcnt := t.tcnt } := by
  rcases execTxPush_next h with ⟨-, hp⟩ | ⟨-, rfl⟩
  · rcases pushByte_ok hp with ⟨-, rfl⟩ | ⟨-, rfl⟩ | ⟨-, rfl⟩ <;> rfl
  · rfl

/-- `TX_BUILD` writes `TXQ`, `TSTAT`, `TCNT` and its strobe, and adds its observation (R123). -/
theorem exec_txBuild_writes {s t : State} (h : exec .txBuild s = .next t) :
    t = { s with
      txq := t.txq, tstat := t.tstat, tcnt := t.tcnt
      txStatusValid := t.txStatusValid, obs := t.obs } := by
  rcases execTxBuild_next h with ⟨-, hb⟩ | ⟨-, rfl⟩
  · rcases buildPushed_ok hb with ⟨-, rfl⟩ | ⟨-, rfl⟩ | ⟨-, -, rfl⟩ <;> rfl
  · rfl

/-- A byte stored at one index leaves the bytes at the others. -/
theorem State.byteAt_of_space_write {s t : State} {sp : Space} {a i : Nat} {b : Byte}
    (h : t.space sp = (s.space sp).write a b) (hi : i ≠ a) : t.byteAt sp i = s.byteAt sp i := by
  rw [State.byteAt, h, Memory.read?_write_other _ b hi, State.byteAt]

/-- `TX_PUSH` stores at `TBUF[TCNT]` only (R122). -/
theorem exec_txPush_tbuf {b : Byte} {s t : State} (h : exec (.txPush b) s = .next t) :
    t.tbuf = s.tbuf.write s.tcnt.toNat b ∨ t.tbuf = s.tbuf := by
  rcases execTxPush_next h with ⟨-, hp⟩ | ⟨-, rfl⟩
  · rcases pushByte_ok hp with ⟨-, rfl⟩ | ⟨-, rfl⟩ | ⟨-, rfl⟩
    · exact .inl rfl
    · exact .inr rfl
    · exact .inr rfl
  · exact .inr rfl

/-! ## The obligations -/

/-- Settles O42: the registers that each instruction writes lie in its own group. -/
theorem groupsWrittenByOwnFunction : Obligations.GroupsWrittenByOwnFunction := by
  unfold Obligations.GroupsWrittenByOwnFunction
  intro i s t h
  cases i with
  | nop =>
    cases h
    exact ⟨fun _ => ⟨.refl s, .refl s⟩, fun _ => rfl, fun _ => .refl s⟩
  | rxByte b =>
    rw [exec_rxByte_writes h]
    exact ⟨fun hg => absurd rfl hg, fun _ => rfl, fun _ => .refl s⟩
  | crcInit =>
    cases h
    exact ⟨fun _ => ⟨.refl s, .refl s⟩, fun hg => absurd rfl hg, fun _ => .refl s⟩
  | crcByte b =>
    cases h
    exact ⟨fun _ => ⟨.refl s, .refl s⟩, fun hg => absurd rfl hg, fun _ => .refl s⟩
  | txPush b =>
    rw [exec_txPush_writes h]
    exact ⟨fun _ => ⟨.refl s, .refl s⟩, fun _ => rfl, fun hg => absurd rfl hg⟩
  | txBuild =>
    rw [exec_txBuild_writes h]
    exact ⟨fun _ => ⟨.refl s, .refl s⟩, fun _ => rfl, fun hg => absurd rfl hg⟩
  | _ => cases h

/-- Settles O22: the groups by O42, the two buffers by the parser's moves. -/
theorem rxByteFrame : Obligations.RxByteFrame := by
  unfold Obligations.RxByteFrame
  intro b s t h
  obtain ⟨-, hgenerator, hbuilder⟩ := groupsWrittenByOwnFunction _ s t h
  have htbuf : t.space .tbuf = s.space .tbuf := by rw [exec_rxByte_writes h]; rfl
  have hstrobe : t.txStatusValid = s.txStatusValid := by rw [exec_rxByte_writes h]
  have hdraws : t.draws = s.draws := by rw [exec_rxByte_writes h]
  have hinputs : t.inputs = s.inputs := exec_inputs h
  obtain ⟨ph, u, o, hph, hm, rfl⟩ := exec_rxByte_move h
  have hpst : s.pst = ph.code := phaseOf_eq_some hph
  refine ⟨hgenerator (by simp [groupOf]), hbuilder (by simp [groupOf]), hstrobe, hinputs, hdraws,
    State.byteAt_of_space_eq htbuf, fun hpay => ?otherState, fun hpay i hi => ?awaitPayload,
    fun ho => ?result⟩
  case otherState =>
    have hne : ph ≠ .pay := by rintro rfl; exact hpay hpst
    exact State.byteAt_of_space_eq (hm.pbuf_of_not_pay hne)
  case awaitPayload =>
    have heq : ph = .pay := Option.some.inj (hph.symm.trans (by rw [hpay]; rfl))
    subst heq
    exact State.byteAt_of_space_write hm.pbuf_of_pay hi
  case result =>
    obtain ⟨hlen, hbuf, hvalid⟩ := hm.result_of_not_complete ho
    exact ⟨hlen, hvalid, State.byteAt_of_space_eq hbuf⟩

/-- Settles O37: the groups by O42, the rest from the registers that the two operations write. -/
theorem txOperationsFrame : Obligations.TxOperationsFrame := by
  unfold Obligations.TxOperationsFrame
  refine ⟨fun b s t h => ?push, fun s t h => ?build⟩
  case push =>
    obtain ⟨hrx, hgenerator, -⟩ := groupsWrittenByOwnFunction _ s t h
    obtain ⟨hparser, hresult⟩ := hrx (by simp [groupOf])
    refine ⟨hparser, hresult, hgenerator (by simp [groupOf]), ?_, ?_, ?_, ?_, ?_, ?_, ?_, ?_,
      fun i hi => ?tbuf⟩
    case tbuf =>
      rcases exec_txPush_tbuf h with hb | hb
      · exact State.byteAt_of_space_write (sp := .tbuf) hb hi
      · exact State.byteAt_of_space_eq (sp := .tbuf) hb i
    all_goals rw [exec_txPush_writes h]
  case build =>
    obtain ⟨hrx, hgenerator, -⟩ := groupsWrittenByOwnFunction _ s t h
    obtain ⟨hparser, hresult⟩ := hrx (by simp [groupOf])
    have hspace : ∀ sp, t.space sp = s.space sp := fun sp => by
      rw [exec_txBuild_writes h]; cases sp <;> rfl
    refine ⟨hparser, hresult, hgenerator (by simp [groupOf]), ?_, ?_, ?_, ?_,
      fun sp => State.byteAt_of_space_eq (hspace sp)⟩
    all_goals rw [exec_txBuild_writes h]

/-- An accepted `TX_BUILD` leaves one of the three statuses (R33, R123). -/
theorem buildPushed_tstat {s t : State} (h : buildPushed s = .ok t) :
    t.tstat = .ok ∨ t.tstat = .payloadTooLarge ∨ t.tstat = .emptyPayload := by
  rcases buildPushed_ok h with ⟨-, rfl⟩ | ⟨-, rfl⟩ | ⟨-, -, rfl⟩ <;> simp

/-- `TX_BUILD` alone writes `TSTAT` (R33). -/
theorem exec_tstat_of_not_txBuild {i : Instr} {s t : State} (h : exec i s = .next t)
    (hi : i ≠ .txBuild) : t.tstat = s.tstat := by
  by_cases hg : groupOf i = .builder
  · cases i with
    | txPush b => rw [exec_txPush_writes h]
    | txBuild => exact absurd rfl hi
    | _ => cases hg
  · obtain ⟨-, -, hbuilder⟩ := groupsWrittenByOwnFunction i s t h
    obtain ⟨-, -, htstat, -, -⟩ := hbuilder hg
    exact htstat

/-- Settles O44: by O42 the other groups leave both registers alone, and each operation's own cases
give the values it leaves. -/
theorem statusRegistersWrittenByOwnOperation : Obligations.StatusRegistersWrittenByOwnOperation := by
  unfold Obligations.StatusRegistersWrittenByOwnOperation
  refine ⟨fun i s t h hg => ?_, fun b s t h => ?_, fun i s t => exec_tstat_of_not_txBuild,
    fun s t hq h => ?_, rfl, rfl, rfl, rfl, rfl, rfl, rfl, rfl, rfl, rfl⟩
  · obtain ⟨hrx, -, -⟩ := groupsWrittenByOwnFunction i s t h
    obtain ⟨-, hrout, -, -, -⟩ := hrx hg
    exact hrout
  · obtain ⟨ph, u, o, -, hm, rfl⟩ := exec_rxByte_move h
    exact hm.outcome
  · rcases execTxBuild_next h with ⟨-, hb⟩ | ⟨hbusy, -⟩
    · exact buildPushed_tstat hb
    · exact absurd hq (State.txReady_eq_false_iff.1 hbusy)

end Sys2Proof.Machine
end

section
/-!
PROOFS, the transmit stream (R34, R35): what the parts of a step keep, packaged once, and with it that
every step but a reset sends and queues exactly the frames it observes (O55).
-/

namespace Sys2Proof.Machine

/-! ## What every part of a step keeps, a step keeps -/

/-- A property kept by taking an input, by the edge itself, by every operation and by sending queued
bytes is kept by the step; by reset only where the step is one (R11, R84, R124, R230). -/
theorem step_keeps {P : State → Prop} {s t : State}
    (hpop : ∀ s, P s → P s.popInput) (htick : ∀ s, P s → P s.tick)
    (hexec : ∀ i s t, P s → exec i s = .next t → P t)
    (hsendByte : ∀ s, P s → P s.sendByte) (hsendAll : ∀ s, P s → P s.sendAll)
    (hreset : s.resetNext = true → ∀ s, P s → P s.resetEdge)
    (hs : P s) (h : step s = .next t) : P t := by
  have hedge : ∀ (p : InPorts) (u : State), (p.rst = true → s.resetNext = true) → P u →
      clockEdge p u = .next t → P t := by
    intro p u hp hu h
    rcases clockEdge_next h with ⟨hrst, rfl⟩ | ⟨-, hrun⟩
    · exact hreset (hp hrst) _ (htick u hu)
    · refine runInstrs_keeps hexec ?_ hrun
      rcases handshake_cases p u.tick with hk | ⟨-, -, hk⟩ <;> rw [hk]
      · exact htick u hu
      · exact hsendByte _ (htick u hu)
  rcases step_next h with ⟨-, h⟩ | ⟨w, rest, -, h⟩ | ⟨p, rest, hin, h⟩
  · exact hedge {} s (fun hrst => by cases hrst) hs h
  · have htaken : P s.popInput.tick := htick _ (hpop s hs)
    rcases transact_next h with ⟨-, u, hu, rfl⟩ | ⟨-, hx⟩
    · exact hsendAll u (hexec _ _ u (hsendAll _ htaken) hu)
    · exact hexec _ _ t htaken hx
  · exact hedge p _ (fun hrst => by rw [State.resetNext, hin]; exact hrst) (hpop s hs) h

/-! ## The stream of transmitted bytes -/

theorem framesIn_append (os os' : List Obs) : framesIn (os ++ os') = framesIn os ++ framesIn os' := by
  fun_induction framesIn os <;> simp_all [framesIn]

@[simp] theorem State.sendByte_transmitted (s : State) : s.sendByte.transmitted = s.transmitted := by
  rw [State.transmitted, State.sendByte_txout, State.sendByte_txq, List.append_assoc,
    List.take_append_drop, State.transmitted]

@[simp] theorem State.sendAll_transmitted (s : State) : s.sendAll.transmitted = s.transmitted := by
  simp [State.transmitted]

/-- From `s` to `t` the observations grow at the end, and the bytes sent and queued by exactly the
frames among the new ones (R34, R35). -/
def SendsObservedFrames (s t : State) : Prop :=
  ∃ os, t.obs = s.obs ++ os ∧ t.transmitted = s.transmitted ++ framesIn os

namespace SendsObservedFrames

variable {s t u : State}

theorem of_unchanged (hobs : t.obs = s.obs) (htx : t.transmitted = s.transmitted) :
    SendsObservedFrames s t :=
  ⟨[], by simpa using hobs, by simpa [framesIn] using htx⟩

theorem trans (h₁ : SendsObservedFrames s t) (h₂ : SendsObservedFrames t u) :
    SendsObservedFrames s u := by
  obtain ⟨os₁, hobs₁, htx₁⟩ := h₁
  obtain ⟨os₂, hobs₂, htx₂⟩ := h₂
  exact ⟨os₁ ++ os₂, by simp [hobs₂, hobs₁], by simp [htx₂, htx₁, framesIn_append]⟩

end SendsObservedFrames

theorem exec_rxByte_obs {b : Byte} {s t : State} (h : exec (.rxByte b) s = .next t) :
    ∃ o p, t.obs = s.obs ++ [.rx o p] := by
  obtain ⟨ph, u, o, -, hm, rfl⟩ := exec_rxByte_move h
  have hobs : u.obs = s.obs := by rw [hm.writes]
  exact ⟨o, u.outcomePayload o, by simp [hobs]⟩

/-- An accepted build queues its frame on an empty queue, or queues none (R123, R124). -/
theorem exec_txBuild_sends {s t : State} (h : exec .txBuild s = .next t) : SendsObservedFrames s t := by
  rcases execTxBuild_next h with ⟨hready, hb⟩ | ⟨-, rfl⟩
  · have hq : s.txq = [] := State.txReady_iff.1 hready
    rcases buildPushed_ok hb with ⟨-, rfl⟩ | ⟨-, rfl⟩ | ⟨-, -, rfl⟩
    · exact ⟨[.tx .payloadTooLarge none], rfl, by simp [State.transmitted, framesIn]⟩
    · exact ⟨[.tx .emptyPayload none], rfl, by simp [State.transmitted, framesIn]⟩
    · exact ⟨[.tx .ok (some (frameOf (s.prefixOf .tbuf s.tcnt.toNat)))], rfl,
        by simp [State.transmitted, framesIn, hq]⟩
  · exact .of_unchanged rfl rfl

theorem exec_sendsObservedFrames {i : Instr} {s t : State} (h : exec i s = .next t) :
    SendsObservedFrames s t := by
  cases i with
  | nop => cases h; exact .of_unchanged rfl rfl
  | rxByte b =>
    obtain ⟨o, p, hobs⟩ := exec_rxByte_obs h
    have htx : t.transmitted = s.transmitted := by rw [exec_rxByte_writes h]; rfl
    exact ⟨[.rx o p], hobs, by simpa [framesIn] using htx⟩
  | crcInit => cases h; exact .of_unchanged rfl rfl
  | crcByte b => cases h; exact .of_unchanged rfl rfl
  | txPush b => rw [exec_txPush_writes h]; exact .of_unchanged rfl rfl
  | txBuild => exact exec_txBuild_sends h
  | _ => cases h

/-- Every step but a reset sends the frames it observes. -/
theorem step_sendsObservedFrames {s t : State} (hr : s.resetNext = false) (h : step s = .next t) :
    SendsObservedFrames s t :=
  step_keeps (P := SendsObservedFrames s)
    (fun _ hu => hu.trans (.of_unchanged rfl rfl))
    (fun _ hu => hu.trans (.of_unchanged rfl rfl))
    (fun _ _ _ hu hx => hu.trans (exec_sendsObservedFrames hx))
    (fun u hu => hu.trans (.of_unchanged rfl u.sendByte_transmitted))
    (fun u hu => hu.trans (.of_unchanged rfl u.sendAll_transmitted))
    (fun hreset => absurd (hreset.symm.trans hr) (by decide))
    (.of_unchanged rfl rfl) h

/-- Settles O55: the observations of the step are the ones its parts added. -/
theorem transmittedStreamIsFramesInBuildOrder : Obligations.TransmittedStreamIsFramesInBuildOrder := by
  unfold Obligations.TransmittedStreamIsFramesInBuildOrder
  intro s t hr h
  obtain ⟨os, hobs, htx⟩ := step_sendsObservedFrames hr h
  have hos : observedBetween s t = os := by simp [observedBetween, hobs]
  exact ⟨⟨os, hobs.symm⟩, by rw [hos, htx]⟩

end Sys2Proof.Machine
end

section
/-!
PROOFS, the invariant (R23 to R34, R60): it splits by the groups of R20 into the parser's, the result's
and the builder's part. Each part follows from its own registers and is kept by its own operation, and
the other operations keep it because they leave the group alone (O42). From this O57, O56 and O60.
-/

namespace Sys2Proof.Machine

/-! ## The parts of the invariant -/

/-- What `PLEN`, `PCNT` and `PCRCH` may hold in a parser state (R25, R141, R145, R146). -/
def Phase.Fits (s : State) : Phase → Prop
  | .h1 | .h2 | .len => s.plen = 0 ∧ s.pcnt = 0 ∧ s.pcrch = 0
  | .pay => s.pcnt.toNat < s.plen.toNat ∧ s.pcrch = 0
  | .crch => s.pcnt = s.plen ∧ s.pcrch = 0
  | .crcl => s.pcnt = s.plen

theorem accumulatorsOk_iff {s : State} :
    s.accumulatorsOk = true ↔ ∃ ph, phaseOf s.pst = some ph ∧ ph.Fits s := by
  unfold State.accumulatorsOk
  cases phaseOf s.pst with
  | none => simp
  | some ph => cases ph <;> simp [Phase.Fits, and_assoc]

/-- The parser's part of the invariant (R23 to R27). -/
structure ParserOk (s : State) : Prop where
  phase : ∃ ph, phaseOf s.pst = some ph ∧ ph.Fits s
  payloadHeld : s.pbuf.writtenTo s.pcnt.toNat
  canonical : s.pbuf.wf
  inRange : s.pbuf.inRange

/-- The result's part of the invariant (R28, R29). -/
structure ResultOk (s : State) : Prop where
  held : s.rvalid = true → s.rbuf.writtenTo s.rlen.toNat
  absent : s.rvalid = false → s.rlen = 0
  complete : s.rout = .complete → s.rvalid = true
  canonical : s.rbuf.wf
  inRange : s.rbuf.inRange

/-- The builder's part of the invariant (R31, R32, R34). -/
structure BuilderOk (s : State) : Prop where
  count : s.tcnt.toNat ≤ 256
  held : s.tbuf.writtenTo (min s.tcnt.toNat 255)
  queueBound : s.txq.length ≤ 260
  canonical : s.tbuf.wf
  inRange : s.tbuf.inRange

theorem invariant_iff {s : State} : Invariant s ↔ ParserOk s ∧ ResultOk s ∧ BuilderOk s := by
  constructor
  · intro h
    exact ⟨⟨accumulatorsOk_iff.1 h.accumulators, h.payloadHeld, h.buffersCanonical .pbuf,
        h.buffersInRange .pbuf⟩,
      ⟨h.resultHeld, h.resultAbsent, h.completeHeld, h.buffersCanonical .rbuf,
        h.buffersInRange .rbuf⟩,
      ⟨h.pushCount, h.pushedHeld, h.queueBound, h.buffersCanonical .tbuf, h.buffersInRange .tbuf⟩⟩
  · rintro ⟨hp, hr, hb⟩
    exact
      { accumulators := accumulatorsOk_iff.2 hp.phase
        payloadHeld := hp.payloadHeld
        resultHeld := hr.held
        resultAbsent := hr.absent
        completeHeld := hr.complete
        pushCount := hb.count
        pushedHeld := hb.held
        queueBound := hb.queueBound
        buffersCanonical := fun sp => match sp with
          | .pbuf => hp.canonical
          | .rbuf => hr.canonical
          | .tbuf => hb.canonical
        buffersInRange := fun sp => match sp with
          | .pbuf => hp.inRange
          | .rbuf => hr.inRange
          | .tbuf => hb.inRange }

/-! ## Each part follows from its own registers -/

theorem Phase.fits_congr {s t : State} (h : SameParser s t) (ph : Phase) : ph.Fits t ↔ ph.Fits s := by
  obtain ⟨-, hlen, hcnt, -, hcrch⟩ := h
  cases ph <;> simp only [Phase.Fits, hlen, hcnt, hcrch]

theorem ParserOk.of_same {s t : State} (hs : ParserOk s) (h : SameParser s t) : ParserOk t := by
  obtain ⟨ph, hph, hfit⟩ := hs.phase
  have hfit := (Phase.fits_congr h ph).2 hfit
  obtain ⟨hpst, -, hcnt, hbuf, -⟩ := h
  exact ⟨⟨ph, by rw [hpst, hph], hfit⟩, by rw [hbuf, hcnt]; exact hs.payloadHeld,
    by rw [hbuf]; exact hs.canonical, by rw [hbuf]; exact hs.inRange⟩

theorem ResultOk.of_same {s t : State} (hs : ResultOk s) (h : SameResult s t) : ResultOk t := by
  obtain ⟨hrout, hlen, hbuf, hvalid⟩ := h
  exact ⟨by rw [hvalid, hbuf, hlen]; exact hs.held, by rw [hvalid, hlen]; exact hs.absent,
    by rw [hrout, hvalid]; exact hs.complete, by rw [hbuf]; exact hs.canonical,
    by rw [hbuf]; exact hs.inRange⟩

/-- The builder's part survives sending as well: the queue may only shrink. -/
theorem BuilderOk.of_queue_le {s t : State} (hs : BuilderOk s) (hcnt : t.tcnt = s.tcnt)
    (hbuf : t.tbuf = s.tbuf) (hq : t.txq.length ≤ s.txq.length) : BuilderOk t :=
  ⟨by rw [hcnt]; exact hs.count, by rw [hbuf, hcnt]; exact hs.held, hq.trans hs.queueBound,
    by rw [hbuf]; exact hs.canonical, by rw [hbuf]; exact hs.inRange⟩

theorem BuilderOk.of_same {s t : State} (hs : BuilderOk s) (h : SameBuilder s t) : BuilderOk t := by
  obtain ⟨hcnt, hbuf, -, hq, -⟩ := h
  exact hs.of_queue_le hcnt hbuf (by rw [hq])

/-- A change that, of the registers the invariant speaks of, touches the transmit queue alone and does
not lengthen it keeps the invariant. -/
theorem Invariant.of_queue_le {s t : State} (hs : Invariant s) (hparser : SameParser s t)
    (hresult : SameResult s t) (hcnt : t.tcnt = s.tcnt) (hbuf : t.tbuf = s.tbuf)
    (hq : t.txq.length ≤ s.txq.length) : Invariant t := by
  obtain ⟨hp, hr, hb⟩ := invariant_iff.1 hs
  exact invariant_iff.2 ⟨hp.of_same hparser, hr.of_same hresult, hb.of_queue_le hcnt hbuf hq⟩

/-! ## The invariant at reset -/

theorem Memory.writtenTo_zero (m : Memory) : m.writtenTo 0 := fun i hi => absurd hi (Nat.not_lt_zero i)

theorem Memory.nil_wf : Memory.wf [] := List.Pairwise.nil

theorem Memory.nil_inRange : Memory.inRange [] := fun c hc => by cases hc

/-- Settles O57: nothing is counted at reset, and no buffer lists an index. -/
theorem invariantAtReset : Obligations.InvariantAtReset := by
  unfold Obligations.InvariantAtReset
  exact invariant_iff.2
    ⟨⟨⟨.h1, phaseOf_code .h1, rfl, rfl, rfl⟩, Memory.writtenTo_zero _, Memory.nil_wf,
        Memory.nil_inRange⟩,
      ⟨fun _ => Memory.writtenTo_zero _, fun _ => rfl, nofun, Memory.nil_wf,
        Memory.nil_inRange⟩,
      ⟨by decide, Memory.writtenTo_zero _, by decide, Memory.nil_wf, Memory.nil_inRange⟩⟩

/-! ## The parser keeps its part -/

/-- A counter below a declared length does not wrap around (R145). -/
theorem toNat_succ_of_lt {a n : Byte} (h : a.toNat < n.toNat) : (a + 1#8).toNat = a.toNat + 1 := by
  bv_omega

theorem FeedMove.keeps_parserOk {b : Byte} {s u : State} {ph : Phase} {o : RxOutcome}
    (h : FeedMove b s ph u o) (hph : phaseOf s.pst = some ph) (hs : ParserOk s) : ParserOk u := by
  obtain ⟨⟨ph', hph', hfit⟩, hheld, hwf, hrange⟩ := hs
  obtain rfl : ph = ph' := Option.some.inj (hph.symm.trans hph')
  cases h with
  | header1Found => exact ⟨⟨.h2, phaseOf_code .h2, hfit⟩, hheld, hwf, hrange⟩
  | header1Missed => exact ⟨⟨.h1, hph, hfit⟩, hheld, hwf, hrange⟩
  | header2Found => exact ⟨⟨.len, phaseOf_code .len, hfit⟩, hheld, hwf, hrange⟩
  | header2Missed => exact ⟨⟨.h1, phaseOf_code .h1, hfit⟩, hheld, hwf, hrange⟩
  | zeroLength hb =>
    obtain ⟨-, -, hcrch⟩ := hfit
    exact ⟨⟨.crch, phaseOf_code .crch, hb.symm, hcrch⟩, Memory.writtenTo_zero _, hwf, hrange⟩
  | positiveLength hb =>
    obtain ⟨-, -, hcrch⟩ := hfit
    have hpos : (0 : Byte).toNat < b.toNat := by bv_omega
    exact ⟨⟨.pay, phaseOf_code .pay, hpos, hcrch⟩, Memory.writtenTo_zero _, hwf, hrange⟩
  | lastPayloadByte hi hlast =>
    obtain ⟨hlt, hcrch⟩ := hfit
    refine ⟨⟨.crch, phaseOf_code .crch, hlast, hcrch⟩, ?_, Memory.write_wf _ b hwf,
      Memory.write_inRange b hrange hi⟩
    simpa [toNat_succ_of_lt hlt] using Memory.writtenTo_write_succ b hheld
  | payloadByte hi hmore =>
    obtain ⟨hlt, hcrch⟩ := hfit
    have hlt' : (s.pcnt + 1#8).toNat < s.plen.toNat := by bv_omega
    refine ⟨⟨.pay, hph, hlt', hcrch⟩, ?_, Memory.write_wf _ b hwf,
      Memory.write_inRange b hrange hi⟩
    simpa [toNat_succ_of_lt hlt] using Memory.writtenTo_write_succ b hheld
  | crcHigh =>
    obtain ⟨hcnt, -⟩ := hfit
    exact ⟨⟨.crcl, phaseOf_code .crcl, hcnt⟩, hheld, hwf, hrange⟩
  | crcMatch => exact ⟨⟨.h1, phaseOf_code .h1, rfl, rfl, rfl⟩, Memory.writtenTo_zero _, hwf, hrange⟩
  | crcMismatch => exact ⟨⟨.h1, phaseOf_code .h1, rfl, rfl, rfl⟩, Memory.writtenTo_zero _, hwf, hrange⟩

/-- A payload written from index 0 is held whole. -/
theorem Memory.writtenTo_writeFrom (m : Memory) (p : List Byte) :
    (m.writeFrom 0 p).writtenTo p.length := by
  intro i hi
  have := Memory.read?_writeFrom_inside (m := m) (i := 0) p hi
  rw [Nat.zero_add] at this
  simp [this]

/-- The result's part is kept by a move and the record of its outcome: `COMPLETE` delivers the payload
whole, and any other outcome leaves the result as it was. -/
theorem FeedMove.keeps_resultOk {b : Byte} {s u : State} {ph : Phase} {o : RxOutcome}
    (h : FeedMove b s ph u o) (hs : ResultOk s) : ResultOk (u.recordOutcome o) := by
  by_cases ho : o = .complete
  · cases h with
    | crcMatch =>
      have hfits : 0 + (s.prefixOf .pbuf s.plen.toNat).length ≤ Config.bufBytes := by
        simpa using plen_le_bufBytes s.plen
      have hheld := Memory.writtenTo_writeFrom s.rbuf (s.prefixOf .pbuf s.plen.toNat)
      refine ⟨fun _ => ?_, fun hv => ?_, fun _ => rfl, Memory.writeFrom_wf 0 _ hs.canonical,
        Memory.writeFrom_inRange _ hs.inRange hfits⟩
      · simpa [lengthByte] using hheld
      · cases hv
    | _ => cases ho
  · obtain ⟨hlen, hbuf, hvalid⟩ := h.result_of_not_complete ho
    exact ⟨by simpa [hlen, hbuf, hvalid] using hs.held, by simpa [hlen, hvalid] using hs.absent,
      fun hc => absurd hc ho, by simpa [hbuf] using hs.canonical, by simpa [hbuf] using hs.inRange⟩

/-! ## The builder keeps its part -/

theorem pushByte_keeps_builderOk {b : Byte} {s t : State} (hs : BuilderOk s)
    (h : pushByte b s = .ok t) : BuilderOk t := by
  obtain ⟨hcount, hheld, hq, hwf, hrange⟩ := hs
  rcases pushByte_ok h with ⟨hle, rfl⟩ | ⟨hfull, rfl⟩ | ⟨-, rfl⟩
  · have hsucc : (s.tcnt + 1).toNat = s.tcnt.toNat + 1 := by bv_omega
    rw [Nat.min_eq_left (by omega)] at hheld
    refine ⟨?_, ?_, hq, Memory.write_wf _ b hwf,
      Memory.write_inRange b hrange (by simp only [Config.bufBytes]; omega)⟩
    · simp only [State.setTcnt_tcnt]
      omega
    · rw [State.setTcnt_tcnt, hsucc, Nat.min_eq_left (by omega)]
      exact Memory.writtenTo_write_succ b hheld
  · rw [hfull] at hheld
    exact ⟨by simp, by simpa using hheld, hq, hwf, hrange⟩
  · exact ⟨hcount, hheld, hq, hwf, hrange⟩

theorem buildPushed_keeps_builderOk {s t : State} (hs : BuilderOk s) (h : buildPushed s = .ok t) :
    BuilderOk t := by
  obtain ⟨-, -, hq, hwf, hrange⟩ := hs
  rcases buildPushed_ok h with ⟨-, rfl⟩ | ⟨-, rfl⟩ | ⟨-, hle, rfl⟩
  · exact ⟨by simp, Memory.writtenTo_zero _, hq, hwf, hrange⟩
  · exact ⟨by simp, Memory.writtenTo_zero _, hq, hwf, hrange⟩
  · have hframe : (frameOf (s.prefixOf .tbuf s.tcnt.toNat)).length ≤ 260 := by
      simp only [frameOf_length, State.prefixOf_length]
      omega
    exact ⟨by simp, Memory.writtenTo_zero _, hframe, hwf, hrange⟩

/-! ## Every instruction and every step keeps the invariant -/

theorem exec_keeps_parserOk {i : Instr} {s t : State} (hs : ParserOk s) (h : exec i s = .next t) :
    ParserOk t := by
  by_cases hg : groupOf i = .parser
  · cases i with
    | rxByte b =>
      obtain ⟨ph, u, o, hph, hm, rfl⟩ := exec_rxByte_move h
      exact (hm.keeps_parserOk hph hs).of_same (.refl u)
    | _ => cases hg
  · obtain ⟨hrx, -, -⟩ := groupsWrittenByOwnFunction i s t h
    obtain ⟨hparser, -⟩ := hrx hg
    exact hs.of_same hparser

theorem exec_keeps_resultOk {i : Instr} {s t : State} (hs : ResultOk s) (h : exec i s = .next t) :
    ResultOk t := by
  by_cases hg : groupOf i = .parser
  · cases i with
    | rxByte b =>
      obtain ⟨ph, u, o, -, hm, rfl⟩ := exec_rxByte_move h
      exact hm.keeps_resultOk hs
    | _ => cases hg
  · obtain ⟨hrx, -, -⟩ := groupsWrittenByOwnFunction i s t h
    obtain ⟨-, hresult⟩ := hrx hg
    exact hs.of_same hresult

theorem exec_keeps_builderOk {i : Instr} {s t : State} (hs : BuilderOk s) (h : exec i s = .next t) :
    BuilderOk t := by
  by_cases hg : groupOf i = .builder
  · cases i with
    | txPush b =>
      rcases execTxPush_next h with ⟨-, hp⟩ | ⟨-, rfl⟩
      · exact pushByte_keeps_builderOk hs hp
      · exact hs
    | txBuild =>
      rcases execTxBuild_next h with ⟨-, hb⟩ | ⟨-, rfl⟩
      · exact buildPushed_keeps_builderOk hs hb
      · exact hs
    | _ => cases hg
  · obtain ⟨-, -, hbuilder⟩ := groupsWrittenByOwnFunction i s t h
    exact hs.of_same (hbuilder hg)

theorem exec_keeps_invariant {i : Instr} {s t : State} (hs : Invariant s) (h : exec i s = .next t) :
    Invariant t := by
  obtain ⟨hp, hr, hb⟩ := invariant_iff.1 hs
  exact invariant_iff.2
    ⟨exec_keeps_parserOk hp h, exec_keeps_resultOk hr h, exec_keeps_builderOk hb h⟩

/-- Settles O56: the parts of a step keep the invariant, so the step does (`step_keeps`). -/
theorem invariantKeptByStep : Obligations.InvariantKeptByStep := by
  unfold Obligations.InvariantKeptByStep
  intro s t hs h
  refine step_keeps (P := Invariant) ?pop ?tick (fun _ _ _ => exec_keeps_invariant) ?sendByte ?sendAll
    ?reset hs h
  case pop => exact fun u hu => hu.of_queue_le (.refl u) (.refl u) rfl rfl le_rfl
  case tick => exact fun u hu => hu.of_queue_le (.refl u) (.refl u) rfl rfl le_rfl
  case sendByte => exact fun u hu => hu.of_queue_le (.refl u) (.refl u) rfl rfl (by simp)
  case sendAll => exact fun u hu => hu.of_queue_le (.refl u) (.refl u) rfl rfl (by simp)
  case reset =>
    exact fun _ u _ =>
      invariantAtReset.of_queue_le (.refl State.reset) (.refl State.reset) rfl rfl le_rfl

/-! ## The sum type and the registers -/

@[simp] theorem ParserState.lengthsOk_pay {n : Fin 256} {acc : List Byte} :
    (ParserState.pay n acc).lengthsOk = true ↔ acc.length < n.val := decide_eq_true_iff

@[simp] theorem ParserState.lengthsOk_crch {p : List Byte} :
    (ParserState.crch p).lengthsOk = true ↔ p.length ≤ 255 := decide_eq_true_iff

@[simp] theorem ParserState.lengthsOk_crcl {p : List Byte} {hi : Byte} :
    (ParserState.crcl p hi).lengthsOk = true ↔ p.length ≤ 255 := decide_eq_true_iff

/-- Registers that hold a payload `p` and its declared length `n` in the parser state `ph`, everything
else as at reset: the state that represents an abstract one (R38). -/
def State.holding (ph : Phase) (n : Byte) (p : List Byte) (hi : Byte) : State :=
  { State.reset with
    pst := ph.code, plen := n, pcnt := lengthByte p.length, pbuf := Memory.writeFrom [] 0 p, pcrch := hi }

theorem lengthByte_toNat {n : Nat} (h : n ≤ 255) : (lengthByte n).toNat = n := by
  simp only [lengthByte, BitVec.toNat_ofNat]
  omega

theorem State.holding_prefixOf_pcnt (ph : Phase) (n hi : Byte) {p : List Byte} (hp : p.length ≤ 255) :
    (State.holding ph n p hi).prefixOf .pbuf (State.holding ph n p hi).pcnt.toNat = p := by
  have hcnt : (State.holding ph n p hi).pcnt.toNat = p.length := lengthByte_toNat hp
  rw [hcnt]
  exact (State.prefixOf_of_space_eq rfl p.length).trans (prefixOf_writeFrom State.reset .pbuf p)

theorem State.holding_invariant {ph : Phase} {n hi : Byte} {p : List Byte} (hp : p.length ≤ 255)
    (hfit : ph.Fits (State.holding ph n p hi)) : Invariant (State.holding ph n p hi) := by
  obtain ⟨-, hr, hb⟩ := invariant_iff.1 invariantAtReset
  refine invariant_iff.2 ⟨⟨⟨ph, phaseOf_code ph, hfit⟩, ?_, Memory.writeFrom_wf 0 p Memory.nil_wf, ?_⟩,
    hr.of_same (.refl State.reset), hb.of_same (.refl State.reset)⟩
  · show (Memory.writeFrom [] 0 p).writtenTo (lengthByte p.length).toNat
    rw [lengthByte_toNat hp]
    exact Memory.writtenTo_writeFrom [] p
  · exact Memory.writeFrom_inRange p Memory.nil_inRange (by simpa [Config.bufBytes] using hp)

/-- Every state with the invariant has an abstract state within the lengths of R38. -/
theorem Invariant.parserView_lengthsOk {s : State} (hs : Invariant s) :
    ∃ ps, s.parserView = some ps ∧ ps.lengthsOk = true := by
  obtain ⟨ph, hph, hfit⟩ := accumulatorsOk_iff.1 hs.accumulators
  have hlen : s.plen.toNat ≤ 255 := plen_le_bufBytes s.plen
  cases ph with
  | h1 => exact ⟨_, parserView_of_code (phaseOf_eq_some hph), rfl⟩
  | h2 => exact ⟨_, parserView_of_code (phaseOf_eq_some hph), rfl⟩
  | len => exact ⟨_, parserView_of_code (phaseOf_eq_some hph), rfl⟩
  | pay =>
    obtain ⟨hlt, -⟩ := hfit
    exact ⟨_, parserView_of_code (phaseOf_eq_some hph), by simpa using hlt⟩
  | crch => exact ⟨_, parserView_of_code (phaseOf_eq_some hph), by simpa using hlen⟩
  | crcl => exact ⟨_, parserView_of_code (phaseOf_eq_some hph), by simpa using hlen⟩

/-- Every abstract state within the lengths of R38 is that of a state with the invariant. -/
theorem ParserState.exists_invariant {ps : ParserState} (h : ps.lengthsOk = true) :
    ∃ s, Invariant s ∧ s.parserView = some ps := by
  cases ps with
  | h1 => exact ⟨.holding .h1 0 [] 0, State.holding_invariant (by simp) ⟨rfl, rfl, rfl⟩, rfl⟩
  | h2 => exact ⟨.holding .h2 0 [] 0, State.holding_invariant (by simp) ⟨rfl, rfl, rfl⟩, rfl⟩
  | len => exact ⟨.holding .len 0 [] 0, State.holding_invariant (by simp) ⟨rfl, rfl, rfl⟩, rfl⟩
  | pay n acc =>
    have hlt : acc.length < n.val := ParserState.lengthsOk_pay.1 h
    have hp : acc.length ≤ 255 := by omega
    refine ⟨.holding .pay (.ofFin n) acc 0, State.holding_invariant hp ⟨?_, rfl⟩, ?_⟩
    · exact (lengthByte_toNat hp).trans_lt hlt
    · exact (parserView_of_code (ph := .pay) rfl).trans <|
        congrArg (fun q => some (ParserState.pay n q)) (State.holding_prefixOf_pcnt .pay _ 0 hp)
  | crch p =>
    have hp : p.length ≤ 255 := ParserState.lengthsOk_crch.1 h
    refine ⟨.holding .crch (lengthByte p.length) p 0, State.holding_invariant hp ⟨rfl, rfl⟩, ?_⟩
    exact (parserView_of_code (ph := .crch) rfl).trans <|
      congrArg (fun q => some (ParserState.crch q)) (State.holding_prefixOf_pcnt .crch _ 0 hp)
  | crcl p hi =>
    have hp : p.length ≤ 255 := ParserState.lengthsOk_crcl.1 h
    refine ⟨.holding .crcl (lengthByte p.length) p hi, State.holding_invariant hp rfl, ?_⟩
    exact (parserView_of_code (ph := .crcl) rfl).trans <|
      congrArg (fun q => some (ParserState.crcl q hi)) (State.holding_prefixOf_pcnt .crcl _ hi hp)

/-- The transition table stays within the lengths of R38 (R149). -/
theorem feedAbstract_lengthsOk {ps : ParserState} (b : Byte) (h : ps.lengthsOk = true) :
    (feedAbstract ps b).1.lengthsOk = true := by
  cases ps with
  | h1 => simp only [feedAbstract]; split <;> rfl
  | h2 => simp only [feedAbstract]; split <;> rfl
  | len =>
    simp only [feedAbstract]
    split
    · rfl
    · have hpos : 0 < b.toNat := by bv_omega
      simpa using hpos
  | pay n acc =>
    have hlt : acc.length < n.val := ParserState.lengthsOk_pay.1 h
    simp only [feedAbstract]
    split
    · simp only [ParserState.lengthsOk_crch, List.length_append, List.length_singleton]
      omega
    · simp only [ParserState.lengthsOk_pay, List.length_append, List.length_singleton]
      omega
  | crch p => exact h
  | crcl p hi => simp only [feedAbstract]; split <;> rfl

/-- Settles O60, clause by clause from the three facts above. -/
theorem sumTypeEquivalentToRegisters : Obligations.SumTypeEquivalentToRegisters := by
  unfold Obligations.SumTypeEquivalentToRegisters
  exact ⟨fun _ => Invariant.parserView_lengthsOk, fun _ => ParserState.exists_invariant,
    fun _ => feedAbstract_lengthsOk⟩

end Sys2Proof.Machine
end

section
/-!
PROOFS, the memory (R60 to R66): where each byte of a frame stands (O32), and that only an observed
`COMPLETE` replaces the result that `rb_data` reads (O53).
-/

namespace Sys2Proof.Machine

/-! ## The bytes of a frame -/

/-- The frame as its three leading bytes, the payload, and the CRC's two bytes (R66). -/
theorem frameOf_eq_cons (p : List Byte) :
    frameOf p = Config.hdr1 :: Config.hdr2 :: lengthByte p.length ::
      (p ++ [crcHi (crc16 p), crcLo (crc16 p)]) := rfl

/-- Behind the three leading bytes the offsets count the payload and the CRC's two bytes (R66). -/
theorem frameOf_getElem?_three_add (p : List Byte) (i : Nat) :
    (frameOf p)[3 + i]? = (p ++ [crcHi (crc16 p), crcLo (crc16 p)])[i]? := by
  rw [frameOf_eq_cons, Nat.add_comm 3 i]
  rfl

/-- Behind the payload stand the CRC's two bytes, high byte first (R64, R66). -/
theorem frameOf_getElem?_crc (p : List Byte) (j : Nat) :
    (frameOf p)[3 + (p.length + j)]? = [crcHi (crc16 p), crcLo (crc16 p)][j]? := by
  rw [frameOf_getElem?_three_add, List.getElem?_append_right (Nat.le_add_right _ j),
    Nat.add_sub_cancel_left]

/-- Settles O32: the leading bytes by evaluation, the others by the two offset lemmas above. -/
theorem frameLayoutByOffset : Obligations.FrameLayoutByOffset := by
  unfold Obligations.FrameLayoutByOffset
  intro p hp
  refine ⟨frameOf_length p, rfl, rfl, ⟨lengthByte p.length, rfl, lengthByte_toNat hp⟩,
    fun i hi => ?payload, ?crcHigh, ?crcLow⟩
  case payload => rw [frameOf_getElem?_three_add, List.getElem?_append_left hi]
  case crcHigh => exact frameOf_getElem?_crc p 0
  case crcLow =>
    rw [show 4 + p.length = 3 + (p.length + 1) by omega]
    exact frameOf_getElem?_crc p 1

/-! ## The result port -/

/-- While the result is valid, `rb_data` shows the result byte at every index below `RLEN` (R61). -/
theorem State.rbData_of_valid {s : State} {a : Byte} (hv : s.rvalid = true)
    (ha : a.toNat < s.rlen.toNat) : s.rbData a = s.byteAt .rbuf a.toNat := by
  simp [State.rbData, hv, ha]

/-- From `s` to `t` the observations grow at the end, and the result is as it was unless a `COMPLETE` is
among the new ones (R29, R148). -/
def KeepsResultUntilComplete (s t : State) : Prop :=
  ∃ os, t.obs = s.obs ++ os ∧
    ((∀ p, Obs.rx .complete p ∉ os) → t.rlen = s.rlen ∧ t.rbuf = s.rbuf ∧ t.rvalid = s.rvalid)

namespace KeepsResultUntilComplete

variable {s t u : State}

theorem of_unchanged (hobs : t.obs = s.obs) (hlen : t.rlen = s.rlen) (hbuf : t.rbuf = s.rbuf)
    (hvalid : t.rvalid = s.rvalid) : KeepsResultUntilComplete s t :=
  ⟨[], by simpa using hobs, fun _ => ⟨hlen, hbuf, hvalid⟩⟩

theorem trans (h₁ : KeepsResultUntilComplete s t) (h₂ : KeepsResultUntilComplete t u) :
    KeepsResultUntilComplete s u := by
  obtain ⟨os₁, hobs₁, hkeep₁⟩ := h₁
  obtain ⟨os₂, hobs₂, hkeep₂⟩ := h₂
  refine ⟨os₁ ++ os₂, by simp [hobs₂, hobs₁], fun hno => ?_⟩
  obtain ⟨hlen₁, hbuf₁, hvalid₁⟩ := hkeep₁ fun p hp => hno p (List.mem_append_left os₂ hp)
  obtain ⟨hlen₂, hbuf₂, hvalid₂⟩ := hkeep₂ fun p hp => hno p (List.mem_append_right os₁ hp)
  exact ⟨hlen₂.trans hlen₁, hbuf₂.trans hbuf₁, hvalid₂.trans hvalid₁⟩

end KeepsResultUntilComplete

/-- `RX_BYTE` observes the outcome of its move, and only `COMPLETE` touches the result; the other
operations leave the result alone (O42). -/
theorem exec_keepsResultUntilComplete {i : Instr} {s t : State} (h : exec i s = .next t) :
    KeepsResultUntilComplete s t := by
  by_cases hg : groupOf i = .parser
  · cases i with
    | rxByte b =>
      obtain ⟨ph, u, o, -, hm, rfl⟩ := exec_rxByte_move h
      have hobs : u.obs = s.obs := by rw [hm.writes]
      refine ⟨[.rx o (u.outcomePayload o)], by simp [hobs], fun hno => hm.result_of_not_complete ?_⟩
      rintro rfl
      exact hno _ (List.mem_singleton_self _)
    | _ => cases hg
  · obtain ⟨os, hobs, -⟩ := exec_sendsObservedFrames h
    obtain ⟨hrx, -, -⟩ := groupsWrittenByOwnFunction i s t h
    obtain ⟨-, -, hlen, hbuf, hvalid⟩ := hrx hg
    exact ⟨os, hobs, fun _ => ⟨hlen, hbuf, hvalid⟩⟩

/-- Every step but a reset keeps the result until a `COMPLETE` is observed. -/
theorem step_keepsResultUntilComplete {s t : State} (hr : s.resetNext = false)
    (h : step s = .next t) : KeepsResultUntilComplete s t := by
  refine step_keeps (P := KeepsResultUntilComplete s) ?pop ?tick ?exec ?sendByte ?sendAll ?reset
    (.of_unchanged rfl rfl rfl rfl) h
  case exec => exact fun _ _ _ hu hx => hu.trans (exec_keepsResultUntilComplete hx)
  case reset => exact fun hreset => absurd (hreset.symm.trans hr) (by decide)
  all_goals exact fun _ hu => hu.trans (.of_unchanged rfl rfl rfl rfl)

/-- Settles O53: a step that observes no `COMPLETE` leaves the result valid, with its length and bytes,
so the port reads the same byte before and after. -/
theorem resultReadsAreStable : Obligations.ResultReadsAreStable := by
  unfold Obligations.ResultReadsAreStable
  intro s t a hv ha
  have hread : s.rbData a = s.byteAt .rbuf a.toNat := State.rbData_of_valid hv ha
  refine ⟨hread, fun h hr hno => ?_⟩
  obtain ⟨os, hobs, hkeep⟩ := step_keepsResultUntilComplete hr h
  have hos : observedBetween s t = os := by simp [observedBetween, hobs]
  obtain ⟨hlen, hbuf, hvalid⟩ := hkeep (hos ▸ hno)
  calc t.rbData a
    _ = t.byteAt .rbuf a.toNat := State.rbData_of_valid (hvalid.trans hv) (hlen ▸ ha)
    _ = s.byteAt .rbuf a.toNat := State.byteAt_of_space_eq (sp := .rbuf) hbuf a.toNat
    _ = s.rbData a := hread.symm

end Sys2Proof.Machine
end

section
/-!
PROOFS, the encoding (R81 to R83, R86): the decoder and the encoder read through the op field and the
data field. From this O1, O2 and O3.
-/

namespace Sys2Proof.Machine

/-! ## The op field chooses the operation -/

/-- The decoded operation is the one of the word's op field (R86). -/
@[simp] theorem opcodeOf_decode (w : OpWord) : opcodeOf (decode w) = opField w := by
  apply BitVec.eq_of_toNat_eq
  unfold decode
  split
  case h_16 =>
    have hlt := (opField w).isLt
    show 15 = (opField w).toNat
    simp only [imp_false] at *
    omega
  all_goals exact Eq.symm ‹(opField w).toNat = _›

/-- The operation is one of the six of R82 exactly when its op is below 6. -/
theorem wf_iff_opcodeOf_lt {i : Instr} : i.wf = true ↔ (opcodeOf i).toNat < 6 := by
  cases i <;> simp [Instr.wf, opcodeOf]

/-- A reserved operation is refused under its own op (R181). -/
theorem exec_of_not_wf {i : Instr} (h : i.wf = false) (s : State) :
    exec i s = .refused (.reservedOperation (opcodeOf i)) := by
  cases i with
  | nop | rxByte | crcInit | crcByte | txPush | txBuild => cases h
  | _ => rfl

/-- The data field is the operand of `RX_BYTE`, `CRC_BYTE` and `TX_PUSH`, and of no other operation
(R82, R83). -/
theorem operandOf_decode (w : OpWord) :
    operandOf (decode w) =
      if opField w = 1 ∨ opField w = 3 ∨ opField w = 4 then dataField w else 0 := by
  rw [← opcodeOf_decode]
  unfold decode
  split <;> rfl

/-- Settles O2: each clause from the op of the decoded instruction. -/
theorem decodingFollowsOpField : Obligations.DecodingFollowsOpField := by
  unfold Obligations.DecodingFollowsOpField
  refine fun w => ⟨opcodeOf_decode w, ?_, operandOf_decode w, fun hop s => ?_⟩
  · rw [wf_iff_opcodeOf_lt, opcodeOf_decode]
  · have hwf : (decode w).wf = false := by
      rw [← Bool.not_eq_true, wf_iff_opcodeOf_lt, opcodeOf_decode]
      omega
    rw [exec_of_not_wf hwf, opcodeOf_decode]

/-! ## Words written out -/

/-- Settles O1, by evaluating the decoder on each word. -/
theorem knownWordsDecode : Obligations.KnownWordsDecode := by
  unfold Obligations.KnownWordsDecode
  decide

/-- Settles O3: these arms of the decoder do not read the data field. -/
theorem ignoredDataSelectsSameOperation : Obligations.IgnoredDataSelectsSameOperation := by
  unfold Obligations.IgnoredDataSelectsSameOperation
  refine ⟨fun d => ⟨?_, ?_, ?_⟩, dataField_opWord _ _, dataField_opWord _ _, dataField_opWord _ _⟩
  all_goals
    unfold decode
    rw [opField_opWord]
    rfl

end Sys2Proof.Machine
end

section
/-!
PROOFS, the assembler (R88, R89): what a line of text reads as, and what a line with operands in range
assembles to. From this O4, O5 and O6.
-/

namespace Sys2Proof.Machine

/-! ## Assembling a line -/

theorem assemble_of_wf {a : AsmOp} (h : a.wf = true) : assemble a = some ((expand a).map encode) :=
  if_pos h

theorem assemble_of_not_wf {a : AsmOp} (h : a.wf = false) : assemble a = none := by
  simp [assemble, h]

@[simp] theorem byteOperandOk_iff {v : Nat} : byteOperandOk v = true ↔ v ≤ 255 := by
  simp [byteOperandOk]

@[simp] theorem byteOperandOk_eq_false_iff {v : Nat} : byteOperandOk v = false ↔ 255 < v := by
  simp [byteOperandOk]

/-- Every byte is an operand in range. -/
theorem byteOperandOk_toNat (b : Byte) : byteOperandOk b.toNat = true :=
  byteOperandOk_iff.2 (Nat.lt_succ_iff.1 b.isLt)

theorem all_byteOperandOk_toNat (p : List Byte) :
    (p.map BitVec.toNat).all byteOperandOk = true := by
  rw [List.all_map]
  exact List.all_eq_true.2 fun b _ => byteOperandOk_toNat b

@[simp] theorem operandByte_toNat (b : Byte) : operandByte b.toNat = b := by
  simp [operandByte]

theorem map_operandByte_toNat (p : List Byte) : (p.map BitVec.toNat).map operandByte = p := by
  simp [Function.comp_def]

/-- Settles O5: the range check of the line decides. -/
theorem operandOutOfRangeIsAssemblyError : Obligations.OperandOutOfRangeIsAssemblyError := by
  unfold Obligations.OperandOutOfRangeIsAssemblyError
  refine fun v => ⟨fun hv => ?_, fun hv => ?_⟩
  · have hok : byteOperandOk v = true := byteOperandOk_iff.2 hv
    exact ⟨assemble_of_wf hok, assemble_of_wf hok, assemble_of_wf hok⟩
  · have hout : byteOperandOk v = false := byteOperandOk_eq_false_iff.2 hv
    exact ⟨assemble_of_not_wf hout, assemble_of_not_wf hout, assemble_of_not_wf hout⟩

/-- The words of `RX_BYTE` for each byte of a stream. -/
theorem map_encode_rxSeqOf (bs : List Byte) :
    (rxSeqOf bs).map encode = bs.map fun b => opWord 0x1 b :=
  List.map_map

/-- Settles O6: the operands are in range, and the words of each expansion are those of its bytes. -/
theorem pseudoInstructionsExpand : Obligations.PseudoInstructionsExpand := by
  unfold Obligations.PseudoInstructionsExpand
  intro p
  have hrange := all_byteOperandOk_toNat p
  refine ⟨fun hlen => ?rxFrame, fun hne => ?rxSeq, fun hne => ?crcSeq, ?txFrame⟩
  case rxFrame =>
    have hwf : (AsmOp.rxFrame (p.map BitVec.toNat)).wf = true := by
      rw [AsmOp.wf, hrange, List.length_map]
      exact (Bool.and_true _).trans (decide_eq_true hlen)
    rw [assemble_of_wf hwf, expand, map_operandByte_toNat, map_encode_rxSeqOf]
  case rxSeq =>
    have hwf : (AsmOp.rxSeq (p.map BitVec.toNat)).wf = true := by
      rw [AsmOp.wf, hrange]
      simpa using hne
    rw [assemble_of_wf hwf, expand, map_operandByte_toNat, map_encode_rxSeqOf]
  case crcSeq =>
    have hwf : (AsmOp.crcSeq (p.map BitVec.toNat)).wf = true := by
      rw [AsmOp.wf, hrange]
      simpa using hne
    rw [assemble_of_wf hwf, expand, map_operandByte_toNat, List.map_cons, List.map_map]
    rfl
  case txFrame =>
    rw [assemble_of_wf (a := .txFrame _) hrange, expand, map_operandByte_toNat, List.map_append,
      List.map_map]
    rfl

/-! ## Reading a line of text -/

/-- A character that neither ends a run of letters and digits nor opens a string or a comment (R88). -/
def isRunChar (c : Char) : Bool :=
  c != ';' && c != quoteChar && c != ',' && c != ' ' && c != '\t'

theorem isRunChar_iff {c : Char} :
    isRunChar c = true ↔ c ≠ ';' ∧ c ≠ quoteChar ∧ c ≠ ',' ∧ c ≠ ' ' ∧ c ≠ '\t' := by
  simp [isRunChar, and_assoc]

/-- The lexer takes a whole run into the characters read so far. -/
theorem lex_run_append {w : List Char} (hw : w.all isRunChar = true) (rest cur : List Char) :
    lex (w ++ rest) cur false = lex rest (w.reverse ++ cur) false := by
  induction w generalizing cur with
  | nil => rfl
  | cons c w ih =>
    simp only [List.all_cons, Bool.and_eq_true] at hw
    obtain ⟨hc, hw⟩ := hw
    obtain ⟨hsemi, hquote, hcomma, hspace, htab⟩ := isRunChar_iff.1 hc
    simp [lex, hsemi, hquote, hcomma, hspace, htab, ih hw]

theorem flushWord_reverse {w : List Char} (hw : w ≠ []) (ts : List Token) :
    flushWord w.reverse ts = .word w :: ts := by
  simp [flushWord, hw]

/-- A run alone is one token. -/
theorem lex_run {w : List Char} (hw : w.all isRunChar = true) (hne : w ≠ []) :
    lex w [] false = some [.word w] := by
  have h := lex_run_append hw [] []
  rw [List.append_nil, List.append_nil] at h
  rw [h, lex, flushWord_reverse hne]

/-- Two runs with a blank between them are two tokens. -/
theorem lex_run_blank_run {w v : List Char} (hw : w.all isRunChar = true) (hwne : w ≠ [])
    (hv : v.all isRunChar = true) (hvne : v ≠ []) :
    lex (w ++ [' '] ++ v) [] false = some [.word w, .word v] := by
  rw [List.append_assoc, lex_run_append hw, List.append_nil]
  simp [lex, quoteChar, lex_run hv hvne, flushWord_reverse hwne]

theorem assembleLine_of_parseLine {cs : List Char} {a : AsmOp} (h : parseLine cs = some (some a)) :
    assembleLine cs = assemble a := by
  simp [assembleLine, h]

/-- A mnemonic without an operand. -/
theorem assembleLine_mnemonic {m : List Char} {a : AsmOp} (hm : m.all isRunChar = true) (hne : m ≠ [])
    (hop : parseOp m [] = some a) : assembleLine m = assemble a := by
  apply assembleLine_of_parseLine
  simp [parseLine, lex_run hm hne, hop]

/-! ## The byte operand -/

theorem isRunChar_hexChar : ∀ n < 16, isRunChar (hexChar n) = true := by decide

theorem hexDigit_hexChar : ∀ n < 16, hexDigit (hexChar n) = some n := by decide

theorem all_isRunChar_printByte (b : Byte) : (printByte b).all isRunChar = true := by
  have hhigh := isRunChar_hexChar (b.toNat / 16) (by omega)
  have hlow := isRunChar_hexChar (b.toNat % 16) (by omega)
  have hlead : isRunChar '0' = true ∧ isRunChar 'x' = true := by decide
  simp [printByte, hhigh, hlow, hlead]

theorem parseByte_hex (h l : Char) :
    parseByte ['0', 'x', h, l] = (hexDigit h).bind fun a => (hexDigit l).map fun b => 16 * a + b :=
  rfl

/-- A printed byte reads back as its value (R88). -/
theorem parseByte_printByte (b : Byte) : parseByte (printByte b) = some b.toNat := by
  have hhigh := hexDigit_hexChar (b.toNat / 16) (by omega)
  have hlow := hexDigit_hexChar (b.toNat % 16) (by omega)
  rw [printByte, parseByte_hex, hhigh, hlow, Option.bind_some, Option.map_some, Nat.div_add_mod]

/-- A mnemonic with one printed byte operand. -/
theorem assembleLine_mnemonic_byte {m : List Char} {op : Nat → AsmOp} (b : Byte)
    (hm : m.all isRunChar = true) (hne : m ≠ [])
    (hop : ∀ args, parseOp m args = (parseOperand args).map op) :
    assembleLine (m ++ [' '] ++ printByte b) = assemble (op b.toNat) := by
  apply assembleLine_of_parseLine
  have hlex := lex_run_blank_run hm hne (all_isRunChar_printByte b) (List.cons_ne_nil _ _)
  simp only [parseLine, hlex, hop, parseOperand, parseByte_printByte, Option.map_some]

/-! ## The round trip -/

/-- Sixteen bits hold every operation word, so the host's numbering loses none of its bits (log 19). -/
theorem decodeTableWord_toNat (w : OpWord) : decodeTableWord 16 w.toNat = some (decode w) := by
  have hw : w.toNat < 4096 := w.isLt
  have hmod : w.toNat % 2 ^ 16 = w.toNat := Nat.mod_eq_of_lt (by omega)
  simp only [decodeTableWord, decodeBits, hmod, if_pos hw, BitVec.ofNat_toNat, BitVec.setWidth_eq]

/-- The three operations with an operand assemble from any byte to their own word. -/
theorem assemble_byte_operand (b : Byte) :
    assemble (.rxByte b.toNat) = some [encode (.rxByte b)] ∧
    assemble (.crcByte b.toNat) = some [encode (.crcByte b)] ∧
    assemble (.txPush b.toNat) = some [encode (.txPush b)] := by
  have hok := byteOperandOk_toNat b
  refine ⟨(assemble_of_wf (a := .rxByte _) hok).trans ?_,
    (assemble_of_wf (a := .crcByte _) hok).trans ?_, (assemble_of_wf (a := .txPush _) hok).trans ?_⟩
  all_goals rw [expand, operandByte_toNat]; rfl

/-- An operation prints to a line that assembles to its word (R88). -/
theorem assembleLine_printInstr {i : Instr} (hi : i.wf = true) :
    ∃ cs, printInstr i = some cs ∧ assembleLine cs = some [encode i] := by
  cases i with
  | nop => exact ⟨nameNop, rfl, assembleLine_mnemonic (a := .nop) (by decide) (by decide) rfl⟩
  | crcInit =>
    exact ⟨nameCrcInit, rfl, assembleLine_mnemonic (a := .crcInit) (by decide) (by decide) rfl⟩
  | txBuild =>
    exact ⟨nameTxBuild, rfl, assembleLine_mnemonic (a := .txBuild) (by decide) (by decide) rfl⟩
  | rxByte b =>
    obtain ⟨hword, -, -⟩ := assemble_byte_operand b
    exact ⟨_, rfl, (assembleLine_mnemonic_byte b (by decide) (by decide) fun _ => rfl).trans hword⟩
  | crcByte b =>
    obtain ⟨-, hword, -⟩ := assemble_byte_operand b
    exact ⟨_, rfl, (assembleLine_mnemonic_byte b (by decide) (by decide) fun _ => rfl).trans hword⟩
  | txPush b =>
    obtain ⟨-, -, hword⟩ := assemble_byte_operand b
    exact ⟨_, rfl, (assembleLine_mnemonic_byte b (by decide) (by decide) fun _ => rfl).trans hword⟩
  | _ => cases hi

/-- A reserved word has no line (R88, R181). -/
theorem printInstr_of_not_wf {i : Instr} (hi : i.wf = false) : printInstr i = none := by
  cases i with
  | nop | rxByte | crcInit | crcByte | txPush | txBuild => cases hi
  | _ => rfl

/-- Settles O4: the word by `decode_encode`, the text by reading back the printed line. -/
theorem instructionSurvivesWordAndText : Obligations.InstructionSurvivesWordAndText := by
  unfold Obligations.InstructionSurvivesWordAndText
  refine ⟨fun i => ⟨decode_encode i, ?_⟩, fun _ => assembleLine_printInstr,
    fun _ => printInstr_of_not_wf⟩
  rw [decodeTableWord_toNat, decode_encode]

end Sys2Proof.Machine
end

section
/-!
PROOFS, one rising edge (R80, R84, R85, R124): which instructions an edge runs and on which state, and
what they do to the strobes. From this O47, O49, O52 and O59.
-/

namespace Sys2Proof.Machine

/-! ## The instructions of an edge -/

/-- The operations of the events accepted at an edge with `rst = 0`, in the order of R85: the transmit
requests only while nothing is queued (R84). -/
def acceptedInstrs (p : InPorts) (q : List Byte) : List Instr :=
  (if p.rxValid then [.rxByte p.rxData] else []) ++ (if p.crcInit then [.crcInit] else []) ++
    (if p.crcValid then [.crcByte p.crcData] else []) ++
    (if p.txPush = true ∧ q = [] then [.txPush p.txData] else []) ++
    (if p.txBuild = true ∧ q = [] then [.txBuild] else [])

@[simp] theorem decode_opWord_rxByte (b : Byte) : decode (opWord 0x1#4 b) = .rxByte b :=
  decode_encode (.rxByte b)
@[simp] theorem decode_opWord_crcInit : decode (opWord 0x2#4 0x00#8) = .crcInit :=
  decode_encode .crcInit
@[simp] theorem decode_opWord_crcByte (b : Byte) : decode (opWord 0x3#4 b) = .crcByte b :=
  decode_encode (.crcByte b)
@[simp] theorem decode_opWord_txPush (b : Byte) : decode (opWord 0x4#4 b) = .txPush b :=
  decode_encode (.txPush b)
@[simp] theorem decode_opWord_txBuild : decode (opWord 0x5#4 0x00#8) = .txBuild :=
  decode_encode .txBuild

/-- The `NOP` word in place of no word at all decodes to a `NOP` in place of no operation (R84). -/
theorem map_decode_nop_if_isEmpty (ws : List OpWord) :
    (if ws.isEmpty then [opWord 0x0 0x00] else ws).map decode =
      if ws.map decode = [] then [.nop] else ws.map decode := by
  cases ws with
  | nil => rfl
  | cons w ws => rfl

/-- The accepted words decode to the accepted operations, and to a `NOP` if there is none (R84). -/
theorem map_decode_acceptedWords (p : InPorts) (s : State) :
    (acceptedWords p s).map decode =
      if acceptedInstrs p s.txq = [] then [.nop] else acceptedInstrs p s.txq := by
  rw [acceptedWords, map_decode_nop_if_isEmpty]
  by_cases hq : s.txq = []
  · simp [acceptedInstrs, State.txReady, State.txBusy, hq, apply_ite (List.map decode)]
  · simp [acceptedInstrs, State.txReady, State.txBusy, hq, apply_ite (List.map decode)]

/-- A `NOP` in place of no operation at all makes no difference (R180). -/
theorem runInstrs_nop_if_nil (is : List Instr) (s : State) :
    runInstrs (if is = [] then [.nop] else is) s = runInstrs is s := by
  split
  · next h => rw [h]; rfl
  · rfl

/-! ## The state of an edge -/

theorem State.sendByte_of_empty {s : State} (hq : s.txq = []) : s.sendByte = s := by
  cases s
  cases hq
  simp [State.sendByte]

/-- The output handshake in the registers: a ready edge takes the first queued byte, if there is one. -/
theorem handshake_eq (p : InPorts) (s : State) :
    handshake p s = { s with
      txq := if p.txOutReady then s.txq.drop 1 else s.txq
      txout := if p.txOutReady then s.txout ++ s.txq.take 1 else s.txout } := by
  cases hready : p.txOutReady with
  | false => simp [handshake, hready]
  | true =>
    have hsent : handshake p s = s.sendByte := by
      by_cases hq : s.txq = []
      · simp [handshake, State.txBusy, hq, State.sendByte_of_empty hq]
      · simp [handshake, State.txBusy, hready, hq]
    rw [hsent]
    rfl

/-- A pending edge is taken. -/
theorem step_of_edge {s : State} {p : InPorts} {rest : List Input} (h : s.inputs = .edge p :: rest) :
    step s = clockEdge p { s with inputs := rest } := by
  simp [step, State.popInput, h]

theorem clockEdge_of_rst {p : InPorts} (s : State) (h : p.rst = true) :
    clockEdge p s = .next s.tick.resetEdge :=
  if_pos h

/-- An edge that is no reset runs the accepted operations behind its handshake (R84, R85, R124). -/
theorem clockEdge_of_not_rst {p : InPorts} (s : State) (h : p.rst = false) :
    clockEdge p s = runInstrs (acceptedInstrs p s.txq) (handshake p s.tick) := by
  rw [clockEdge, h, if_neg Bool.false_ne_true, runWords, map_decode_acceptedWords,
    runInstrs_nop_if_nil]

/-- Settles O47: quiet ports accept no operation and take no byte. -/
theorem stepWithoutInputIsIdle : Obligations.StepWithoutInputIsIdle := by
  unfold Obligations.StepWithoutInputIsIdle
  intro s h
  have hquiet : acceptedInstrs {} s.txq = [] := by simp [acceptedInstrs]
  calc step s
    _ = clockEdge {} s := by rw [step, h]
    _ = .next (handshake {} s.tick) := by rw [clockEdge_of_not_rst s rfl, hquiet, runInstrs_nil]
    _ = _ := by rw [handshake_eq]; rfl

/-- Settles O49: the edge's operations by `clockEdge_of_not_rst`, its state by `handshake_eq`. -/
theorem edgeAcceptsEventsInOrder : Obligations.EdgeAcceptsEventsInOrder := by
  unfold Obligations.EdgeAcceptsEventsInOrder
  rintro s p rest _ hin hrst rfl
  rw [step_of_edge hin, clockEdge_of_not_rst _ hrst, handshake_eq, runInstrs_nop_if_nil]
  rfl

/-! ## The strobes -/

theorem runInstrs_append_next {is js : List Instr} {s u : State}
    (h : runInstrs (is ++ js) s = .next u) :
    ∃ t, runInstrs is s = .next t ∧ runInstrs js t = .next u := by
  induction is generalizing s with
  | nil => exact ⟨s, rfl, h⟩
  | cons i is ih =>
    obtain ⟨t, ht, hrun⟩ := runInstrs_cons_next h
    rw [runInstrs_cons_of_next ht]
    exact ih hrun

/-- `RX_BYTE` raises `rx_out_valid`, and no other operation touches it (R80). -/
theorem exec_rxOutValid {i : Instr} {s t : State} (h : exec i s = .next t) :
    t.rxOutValid = (s.rxOutValid || decide (groupOf i = .parser)) := by
  cases i with
  | nop => cases h; simp [groupOf]
  | rxByte b => rw [exec_rxByte_writes h]; simp [groupOf]
  | crcInit => cases h; simp [groupOf]
  | crcByte b => cases h; simp [groupOf]
  | txPush b => rw [exec_txPush_writes h]; simp [groupOf]
  | txBuild => rw [exec_txBuild_writes h]; simp [groupOf]
  | _ => cases h

theorem runInstrs_rxOutValid {is : List Instr} {s t : State} (h : runInstrs is s = .next t) :
    t.rxOutValid = (s.rxOutValid || is.any fun i => decide (groupOf i = .parser)) := by
  induction is generalizing s with
  | nil => cases h; simp
  | cons i is ih =>
    obtain ⟨u, hu, hrun⟩ := runInstrs_cons_next h
    rw [ih hrun, exec_rxOutValid hu, List.any_cons, Bool.or_assoc]

/-- Only `TX_BUILD` touches `tx_status_valid` and the transmit queue (R80, R123). -/
theorem exec_of_not_txBuild {i : Instr} {s t : State} (hi : i ≠ .txBuild) (h : exec i s = .next t) :
    t.txStatusValid = s.txStatusValid ∧ t.txq = s.txq := by
  cases i with
  | nop => cases h; exact ⟨rfl, rfl⟩
  | rxByte b => rw [exec_rxByte_writes h]; exact ⟨rfl, rfl⟩
  | crcInit => cases h; exact ⟨rfl, rfl⟩
  | crcByte b => cases h; exact ⟨rfl, rfl⟩
  | txPush b => rw [exec_txPush_writes h]; exact ⟨rfl, rfl⟩
  | txBuild => exact absurd rfl hi
  | _ => cases h

theorem runInstrs_of_no_txBuild {is : List Instr} {s t : State} (his : .txBuild ∉ is)
    (h : runInstrs is s = .next t) : t.txStatusValid = s.txStatusValid ∧ t.txq = s.txq := by
  induction is generalizing s with
  | nil => cases h; exact ⟨rfl, rfl⟩
  | cons i is ih =>
    obtain ⟨u, hu, hrun⟩ := runInstrs_cons_next h
    obtain ⟨hi, his⟩ := not_or.1 (List.mem_cons.not.1 his)
    obtain ⟨hstrobe, hq⟩ := ih his hrun
    obtain ⟨hstrobe', hq'⟩ := exec_of_not_txBuild (Ne.symm hi) hu
    exact ⟨hstrobe.trans hstrobe', hq.trans hq'⟩

/-- An accepted build raises `tx_status_valid`, whatever its result is (R80, R123). -/
theorem exec_txBuild_txStatusValid {s t : State} (hq : s.txq = []) (h : exec .txBuild s = .next t) :
    t.txStatusValid = true := by
  rcases execTxBuild_next h with ⟨-, hb⟩ | ⟨hbusy, -⟩
  · rcases buildPushed_ok hb with ⟨-, rfl⟩ | ⟨-, rfl⟩ | ⟨-, -, rfl⟩ <;> rfl
  · exact absurd hq (State.txReady_eq_false_iff.1 hbusy)

/-- A build comes last at its edge (R85). -/
theorem acceptedInstrs_eq_append (p : InPorts) (q : List Byte) :
    ∃ is, .txBuild ∉ is ∧
      acceptedInstrs p q = is ++ if p.txBuild = true ∧ q = [] then [.txBuild] else [] :=
  ⟨_, by simp, rfl⟩

theorem any_ite_singleton {c : Prop} [Decidable c] (i : Instr) (f : Instr → Bool) :
    (if c then [i] else []).any f = (decide c && f i) := by
  split <;> simp [*]

theorem any_parser_acceptedInstrs (p : InPorts) (q : List Byte) :
    ((acceptedInstrs p q).any fun i => decide (groupOf i = .parser)) = p.rxValid := by
  simp only [acceptedInstrs, List.any_append, any_ite_singleton, groupOf]
  simp

/-- The strobes after an edge that is no reset. -/
theorem strobes_of_not_rst {p : InPorts} {s t : State} (hrst : p.rst = false)
    (h : clockEdge p s = .next t) :
    t.rxOutValid = p.rxValid ∧ t.txStatusValid = (p.txBuild && decide (s.txq = [])) := by
  rw [clockEdge_of_not_rst s hrst, handshake_eq] at h
  refine ⟨?rx, ?tx⟩
  case rx =>
    rw [runInstrs_rxOutValid h, any_parser_acceptedInstrs]
    rfl
  case tx =>
    obtain ⟨is, his, heq⟩ := acceptedInstrs_eq_append p s.txq
    rw [heq] at h
    obtain ⟨u, hu, hlast⟩ := runInstrs_append_next h
    obtain ⟨hstrobe, hq⟩ := runInstrs_of_no_txBuild his hu
    by_cases hbuild : p.txBuild = true ∧ s.txq = []
    · rw [if_pos hbuild] at hlast
      obtain ⟨v, hv, hnil⟩ := runInstrs_cons_next hlast
      cases hnil
      obtain ⟨hoffered, hempty⟩ := hbuild
      rw [exec_txBuild_txStatusValid (hq.trans (by simp [hempty])) hv, hoffered, hempty]
      rfl
    · rw [if_neg hbuild] at hlast
      cases hlast
      rw [hstrobe]
      simpa using hbuild

/-- Settles O52: a reset edge leaves both strobes 0, any other one raises those of its own events. -/
theorem strobesPulseForOneCycle : Obligations.StrobesPulseForOneCycle := by
  unfold Obligations.StrobesPulseForOneCycle
  intro s t p rest hin h
  rw [step_of_edge hin] at h
  cases hrst : p.rst with
  | true =>
    rw [clockEdge_of_rst _ hrst] at h
    cases h
    simp only [Bool.not_true, Bool.and_false]
    exact ⟨rfl, rfl⟩
  | false =>
    obtain ⟨hrx, htx⟩ := strobes_of_not_rst hrst h
    simp [hrx, htx]

/-! ## The ports -/

/-- Settles O59: the registered ports by definition, the derived ones by what they test. -/
theorem portsShowRegisters : Obligations.PortsShowRegisters := by
  unfold Obligations.PortsShowRegisters
  refine fun s a => ⟨rfl, rfl, rfl, rfl, rfl, rfl, rfl, rfl, rfl, ?txOutValid, State.txReady_iff,
    fun b q hq => ?txOutData, State.rbData_of_valid⟩
  case txOutValid =>
    show s.txBusy = true ↔ s.txq ≠ []
    simp [State.txBusy]
  case txOutData =>
    show s.txOutData = b
    simp [State.txOutData, hq]

end Sys2Proof.Machine
end

section
/-!
PROOFS, independence (R20, R68, R85): an operation reads and writes the registers of its own function
only, and adds to the record what those registers determine. From this O43.
-/

namespace Sys2Proof.Machine

/-! ## The registers of a function -/

/-- `u` with the registers of one function taken from `s` (R20): for the parser with the receive result
and its strobe, for the builder with the transmit queue and its strobe. -/
def State.withGroup (g : FunctionGroup) (u s : State) : State :=
  match g with
  | .noFunction => u
  | .parser => { u with
      pst := s.pst, plen := s.plen, pcnt := s.pcnt, pbuf := s.pbuf, pcrch := s.pcrch
      rout := s.rout, rlen := s.rlen, rbuf := s.rbuf, rvalid := s.rvalid, rxOutValid := s.rxOutValid }
  | .generator => { u with gcrc := s.gcrc }
  | .builder => { u with
      tcnt := s.tcnt, tbuf := s.tbuf, tstat := s.tstat, txq := s.txq, txStatusValid := s.txStatusValid }

@[simp] theorem State.withGroup_self (g : FunctionGroup) (s : State) : s.withGroup g s = s := by
  cases g <;> rfl

/-- `u` with the registers of one function taken from `s`, and with more observations. -/
def State.adopt (g : FunctionGroup) (u s : State) (os : List Obs) : State :=
  { u.withGroup g s with obs := u.obs ++ os }

@[simp] theorem State.adopt_obs (g : FunctionGroup) (u s : State) (os : List Obs) :
    (u.adopt g s os).obs = u.obs ++ os := rfl

/-- What one function adopts leaves the registers of another as they were. -/
theorem State.withGroup_adopt_of_ne {g g' : FunctionGroup} (h : g ≠ g') (u s v : State)
    (os : List Obs) : u.withGroup g' (s.adopt g v os) = u.withGroup g' s := by
  cases g <;> cases g' <;> first | exact absurd rfl h | rfl

theorem State.adopt_withGroup_of_ne {g g' : FunctionGroup} (h : g ≠ g') (s v : State)
    (os : List Obs) : (s.adopt g v os).withGroup g' s = s.adopt g v os := by
  cases g <;> cases g' <;> first | exact absurd rfl h | rfl

/-- Two functions write disjoint registers, so that only the order of the record is left (R20). -/
theorem State.adopt_comm {g g' : FunctionGroup} (h : g ≠ g') (s v v' : State) (os os' o : List Obs) :
    { (s.adopt g v os).adopt g' v' os' with obs := o } =
      { (s.adopt g' v' os').adopt g v os with obs := o } := by
  cases g <;> cases g' <;> first | exact absurd rfl h | rfl

theorem State.eq_of_with_obs {t u : State} (h : { u with obs := t.obs } = t) (hobs : u.obs = t.obs) :
    u = t := by
  rw [← hobs] at h
  exact h

/-! ## An operation works within its own function -/

/-- A move is a parser step: the converse of `feedMove_of_feed`. -/
theorem FeedMove.feed_eq {b : Byte} {s v : State} {ph : Phase} {o : RxOutcome}
    (h : FeedMove b s ph v o) : feed ph b s = .ok (v, o) := by
  cases h with
  | header1Found hb => simp [feed, stepH1, hb]
  | header1Missed hb => simp [feed, stepH1, hb]
  | header2Found hb => simp [feed, stepH2, hb]
  | header2Missed hb => simp [feed, stepH2, hb]
  | zeroLength hb => rw [feed, stepLen_eq, if_pos hb]
  | positiveLength hb => rw [feed, stepLen_eq, if_neg hb]
  | lastPayloadByte hi hlast => simp [feed, stepPay_eq b hi, hlast]
  | payloadByte hi hmore => simp [feed, stepPay_eq b hi, hmore]
  | crcHigh => rfl
  | crcMatch hcrc =>
    rw [feed, stepCrcLo_eq, if_pos hcrc, deliver_eq _ (by simpa using plen_le_bufBytes s.plen),
      State.prefixOf_length]
    rfl
  | crcMismatch hcrc => rw [feed, stepCrcLo_eq, if_neg hcrc]

/-- A move depends on the parser's registers only, and writes no others. -/
theorem FeedMove.withParser {b : Byte} {s v : State} {ph : Phase} {o : RxOutcome}
    (h : FeedMove b s ph v o) (u : State) :
    FeedMove b (u.withGroup .parser s) ph (u.withGroup .parser v) o := by
  cases h with
  | header1Found hb => exact .header1Found hb
  | header1Missed hb => exact .header1Missed hb
  | header2Found hb => exact .header2Found hb
  | header2Missed hb => exact .header2Missed hb
  | zeroLength hb => exact .zeroLength hb
  | positiveLength hb => exact .positiveLength hb
  | lastPayloadByte hi hlast => exact .lastPayloadByte (s := u.withGroup .parser s) hi hlast
  | payloadByte hi hmore => exact .payloadByte (s := u.withGroup .parser s) hi hmore
  | crcHigh => exact .crcHigh
  | crcMatch hcrc => exact .crcMatch (s := u.withGroup .parser s) hcrc
  | crcMismatch hcrc => exact .crcMismatch (s := u.withGroup .parser s) hcrc

theorem pushByte_of_fits {b : Byte} {s : State} (h : s.tcnt.toNat ≤ 254) :
    pushByte b s =
      .ok ((s.setSpace .tbuf (s.tbuf.write s.tcnt.toNat b)).setTcnt (s.tcnt + 1)) := by
  rw [pushByte, if_pos h, memWrite,
    if_pos (show s.tcnt.toNat < Config.bufBytes from Nat.lt_succ_of_le h)]
  rfl

theorem pushByte_of_last {b : Byte} {s : State} (h : s.tcnt.toNat = 255) :
    pushByte b s = .ok (s.setTcnt 256) := by
  rw [pushByte, if_neg (by omega), if_pos h]

theorem pushByte_of_full {b : Byte} {s : State} (h : 255 < s.tcnt.toNat) : pushByte b s = .ok s := by
  rw [pushByte, if_neg (by omega), if_neg (by omega)]

/-- A push depends on the builder's registers only, and writes no others. -/
theorem pushByte_withBuilder {b : Byte} {s t : State} (h : pushByte b s = .ok t) (u : State) :
    pushByte b (u.withGroup .builder s) = .ok (u.withGroup .builder t) := by
  rcases pushByte_ok h with ⟨hfits, rfl⟩ | ⟨hlast, rfl⟩ | ⟨hfull, rfl⟩
  · exact pushByte_of_fits (s := u.withGroup .builder s) hfits
  · exact pushByte_of_last (s := u.withGroup .builder s) hlast
  · exact pushByte_of_full hfull

theorem buildPushed_of_tooLarge {s : State} (h : s.tcnt.toNat = 256) :
    buildPushed s = .ok (s.recordStatus .payloadTooLarge none) :=
  if_pos h

theorem buildPushed_of_empty {s : State} (h : s.tcnt.toNat = 0) :
    buildPushed s = .ok (s.recordStatus .emptyPayload none) := by
  rw [buildPushed, if_neg (by omega), if_pos h]
  rfl

theorem buildPushed_of_fits {s : State} (h₁ : 1 ≤ s.tcnt.toNat) (h₂ : s.tcnt.toNat ≤ 255) :
    buildPushed s =
      .ok ((s.queueFrame (frameOf (s.prefixOf .tbuf s.tcnt.toNat))).recordStatus .ok
        (some (frameOf (s.prefixOf .tbuf s.tcnt.toNat)))) := by
  rw [buildPushed, if_neg (by omega), if_neg (by omega), memReadPrefix,
    if_pos (show s.tcnt.toNat ≤ Config.bufBytes from h₂)]
  simp only [buildFrame_of_fits (p := s.prefixOf .tbuf s.tcnt.toNat) (by simpa using h₁)
    (by simpa using h₂)]
  rfl

/-- In `s` the operation leaves its function's registers as in `v` and observes `os`, whatever the other
functions' registers hold. -/
structure Leaves (i : Instr) (s v : State) (os : List Obs) : Prop where
  silent : hasObservation i = false → os = []
  exec_withGroup : ∀ u : State,
    exec i (u.withGroup (groupOf i) s) = .next (u.adopt (groupOf i) v os)

theorem Leaves.exec_eq {i : Instr} {s v : State} {os : List Obs} (h : Leaves i s v os) :
    exec i s = .next (s.adopt (groupOf i) v os) := by
  simpa using h.exec_withGroup s

/-- An operation without an observation leaves what it leaves in the registers only. -/
theorem leaves_of_registers {i : Instr} {s v : State}
    (h : ∀ u : State, exec i (u.withGroup (groupOf i) s) = .next (u.withGroup (groupOf i) v)) :
    Leaves i s v [] := by
  refine ⟨fun _ => rfl, fun u => (h u).trans ?_⟩
  rw [State.adopt, List.append_nil]
  cases groupOf i <;> rfl

theorem exec_rxByte_leaves {b : Byte} {s t : State} (h : exec (.rxByte b) s = .next t) :
    ∃ os, Leaves (.rxByte b) s t os := by
  obtain ⟨ph, v, o, hph, hm, rfl⟩ := exec_rxByte_move h
  refine ⟨[.rx o (v.outcomePayload o)], nofun, fun u => ?_⟩
  exact (execRxByte_of_feed (s := u.withGroup .parser s) (phaseOf_eq_some hph)
    (hm.withParser u).feed_eq).trans rfl

theorem exec_txPush_leaves {b : Byte} {s t : State} (h : exec (.txPush b) s = .next t) :
    Leaves (.txPush b) s t [] := by
  refine leaves_of_registers fun u => ?_
  rcases execTxPush_next h with ⟨hready, hp⟩ | ⟨hbusy, rfl⟩
  · exact (if_pos hready).trans (congrArg orFault (pushByte_withBuilder hp u))
  · exact if_neg (Bool.eq_false_iff.1 hbusy)

/-- An accepted `TX_BUILD` observes its result, one that is not accepted observes nothing (log 3). -/
theorem exec_txBuild_leaves {s t : State} (h : exec .txBuild s = .next t) :
    ∃ os, Leaves .txBuild s t os := by
  rcases execTxBuild_next h with ⟨hready, hb⟩ | ⟨hbusy, rfl⟩
  · rcases buildPushed_ok hb with ⟨hcnt, rfl⟩ | ⟨hcnt, rfl⟩ | ⟨h₁, h₂, rfl⟩
    · exact ⟨_, nofun, fun u => (if_pos hready).trans
        (congrArg orFault (buildPushed_of_tooLarge (s := u.withGroup .builder s) hcnt))⟩
    · exact ⟨_, nofun, fun u => (if_pos hready).trans
        (congrArg orFault (buildPushed_of_empty (s := u.withGroup .builder s) hcnt))⟩
    · exact ⟨[.tx .ok (some (frameOf (s.prefixOf .tbuf s.tcnt.toNat)))], nofun,
        fun u => (if_pos hready).trans
          (congrArg orFault (buildPushed_of_fits (s := u.withGroup .builder s) h₁ h₂))⟩
  · exact ⟨[], leaves_of_registers fun u => if_neg (Bool.eq_false_iff.1 hbusy)⟩

/-- Every operation that goes on works within its own function. -/
theorem exec_next_leaves {i : Instr} {s t : State} (h : exec i s = .next t) :
    ∃ v os, Leaves i s v os ∧ t = s.adopt (groupOf i) v os := by
  have hleaves : ∃ os, Leaves i s t os := by
    cases i with
    | nop => exact ⟨[], leaves_of_registers fun u => rfl⟩
    | rxByte b => exact exec_rxByte_leaves h
    | crcInit => cases h; exact ⟨[], leaves_of_registers fun u => rfl⟩
    | crcByte b => cases h; exact ⟨[], leaves_of_registers fun u => rfl⟩
    | txPush b => exact ⟨[], exec_txPush_leaves h⟩
    | txBuild => exact exec_txBuild_leaves h
    | _ => cases h
  obtain ⟨os, hl⟩ := hleaves
  exact ⟨t, os, hl, Host.Outcome.next.inj (h.symm.trans hl.exec_eq)⟩

/-- What an operation leaves, it leaves behind one of another function as well. -/
theorem Leaves.exec_adopt_of_ne {i : Instr} {g : FunctionGroup} {s v v' : State} {os os' : List Obs}
    (h : Leaves i s v os) (hne : g ≠ groupOf i) :
    exec i (s.adopt g v' os') = .next ((s.adopt g v' os').adopt (groupOf i) v os) := by
  rw [← h.exec_withGroup, State.adopt_withGroup_of_ne hne]

/-- What an operation leaves behind one of another function, it leaves without it. -/
theorem Leaves.of_adopt_of_ne {i : Instr} {g : FunctionGroup} {s v v' : State} {os os' : List Obs}
    (h : Leaves i (s.adopt g v' os') v os) (hne : g ≠ groupOf i) : Leaves i s v os :=
  ⟨h.silent, fun u => State.withGroup_adopt_of_ne hne u s v' os' ▸ h.exec_withGroup u⟩

/-- Settles O43: each operation leaves the same behind the other one, in registers that are disjoint. -/
theorem differentFunctionsCommute : Obligations.DifferentFunctionsCommute := by
  unfold Obligations.DifferentFunctionsCommute
  intro i j s t hne h
  obtain ⟨a, ha, hrest⟩ := runInstrs_cons_next h
  obtain ⟨_, hb, hnil⟩ := runInstrs_cons_next hrest
  cases hnil
  obtain ⟨v, os, hi, rfl⟩ := exec_next_leaves ha
  obtain ⟨v', os', hj, rfl⟩ := exec_next_leaves hb
  have hj : Leaves j s v' os' := hj.of_adopt_of_ne hne
  have hcomm := State.adopt_comm hne s v v' os os'
  refine ⟨(s.adopt (groupOf j) v' os').adopt (groupOf i) v os, ?run, (hcomm _).symm, ?perm,
    fun hobs => ?same⟩
  case run =>
    rw [runInstrs_cons_of_next hj.exec_eq, runInstrs_cons_of_next (hi.exec_adopt_of_ne hne.symm),
      runInstrs_nil]
  case perm =>
    simp only [State.adopt_obs, List.append_assoc]
    exact List.perm_append_comm.append_left s.obs
  case same =>
    have hrecord : s.obs ++ os' ++ os = s.obs ++ os ++ os' := by
      rcases hobs with hobs | hobs
      · simp [hi.silent hobs]
      · simp [hj.silent hobs]
    exact State.eq_of_with_obs (hcomm _).symm hrecord

end Sys2Proof.Machine
end

section
/-!
PROOFS, the CRC (R100 to R103, R108): one shift of the register bit by bit, its linearity over GF(2) and
its injectivity; from these the same of `crc_update` and of its fold over a message. From this O7, O8,
O9, O10 and O11.
-/

namespace Sys2Proof.Machine

/-! ## One shift -/

/-- The top bit comes back at the bottom: the polynomial has the constant term 1. -/
theorem getLsbD_crcShift_zero (a : Crc) : (crcShift a).getLsbD 0 = a.getLsbD 15 := by
  rw [← BitVec.msb_eq_getLsbD_last a, crcShift]
  cases a.msb <;> simp [Config.crcPoly]

/-- Every other bit comes from its lower neighbour, and from the top bit where the polynomial has a
term. -/
theorem getLsbD_crcShift_succ (a : Crc) {i : Nat} (hi : i + 1 < 16) :
    (crcShift a).getLsbD (i + 1) =
      (a.getLsbD i ^^ (a.getLsbD 15 && Config.crcPoly.getLsbD (i + 1))) := by
  have hmoved : (a <<< 1).getLsbD (i + 1) = a.getLsbD i := by
    rw [BitVec.getLsbD_shiftLeft]
    simp [hi, -BitVec.getLsbD_eq_getElem]
  rw [← BitVec.msb_eq_getLsbD_last a, crcShift]
  cases a.msb <;> simp [-BitVec.getLsbD_shiftLeft, hmoved]

/-- The polynomial of R6 is x^16 + x^12 + x^5 + 1. -/
theorem getLsbD_crcPoly_succ :
    ∀ i < 15, Config.crcPoly.getLsbD (i + 1) = decide (i + 1 = 5 ∨ i + 1 = 12) := by
  decide

theorem getLsbD_crcShift (a : Crc) {i : Nat} (hi : i < 16) :
    (crcShift a).getLsbD i =
      if i = 0 then a.getLsbD 15
      else if i = 5 ∨ i = 12 then a.getLsbD (i - 1) ^^ a.getLsbD 15 else a.getLsbD (i - 1) := by
  cases i with
  | zero => exact getLsbD_crcShift_zero a
  | succ i =>
    rw [getLsbD_crcShift_succ a hi, getLsbD_crcPoly_succ i (Nat.lt_of_succ_lt_succ hi),
      if_neg i.succ_ne_zero, Nat.add_sub_cancel]
    split
    · next htap => rw [decide_eq_true htap, Bool.and_true]
    · next htap => rw [decide_eq_false htap, Bool.and_false, Bool.xor_false]

theorem crcShift_xor (a b : Crc) : crcShift (a ^^^ b) = crcShift a ^^^ crcShift b := by
  refine BitVec.eq_of_getLsbD_eq fun i hi => ?_
  cases i with
  | zero => simp only [BitVec.getLsbD_xor, getLsbD_crcShift_zero]
  | succ i =>
    simp only [BitVec.getLsbD_xor, getLsbD_crcShift_succ _ hi, Bool.and_xor_distrib_right,
      Bool.xor_assoc, Bool.xor_left_comm]

/-- Bit 0 after the shift is the old top bit, and with that known each other bit gives its lower
neighbour. -/
theorem crcShift_injective : Function.Injective crcShift := by
  intro a b h
  have htop : a.getLsbD 15 = b.getLsbD 15 := by
    rw [← getLsbD_crcShift_zero, h, getLsbD_crcShift_zero]
  refine BitVec.eq_of_getLsbD_eq fun i hi => ?_
  rcases Nat.lt_succ_iff_lt_or_eq.1 hi with hlt | rfl
  · have hnext := congrArg (·.getLsbD (i + 1)) h
    simpa only [getLsbD_crcShift_succ _ (Nat.succ_lt_succ hlt), htop, Bool.xor_left_inj] using hnext
  · exact htop

/-! ## Several shifts -/

theorem crcShifts_xor (n : Nat) (a b : Crc) :
    crcShifts n (a ^^^ b) = crcShifts n a ^^^ crcShifts n b := by
  induction n generalizing a b with
  | zero => rfl
  | succ n ih => simp only [crcShifts, crcShift_xor, ih]

theorem crcShifts_injective (n : Nat) : Function.Injective (crcShifts n) := by
  induction n with
  | zero => exact Function.injective_id
  | succ n ih => exact ih.comp crcShift_injective

/-- As long as no 1 leaves the register the polynomial is never added. -/
theorem crcShifts_of_small {n : Nat} {a : Crc} (h : a.toNat * 2 ^ n < 2 ^ 16) :
    crcShifts n a = a <<< n := by
  induction n generalizing a with
  | zero => simp [crcShifts]
  | succ n ih =>
    rw [pow_succ', ← mul_assoc] at h
    have hfits : a.toNat * 2 < 2 ^ 16 := lt_of_le_of_lt (Nat.le_mul_of_pos_right _ (by positivity)) h
    have hmsb : a.msb = false := BitVec.msb_eq_false_iff_two_mul_lt.2 (by omega)
    have hdouble : (a <<< 1).toNat = a.toNat * 2 := by
      rw [BitVec.toNat_shiftLeft, Nat.shiftLeft_eq, pow_one, Nat.mod_eq_of_lt hfits]
    have hshift : crcShift a = a <<< 1 := by simp [crcShift, hmsb]
    rw [crcShifts, hshift, ih (hdouble ▸ h), ← BitVec.shiftLeft_add, Nat.add_comm]

/-! ## `crc_update` -/

/-- `crc_update` is linear over GF(2) in the register and the byte together (R102). -/
theorem crcUpdate_xor (c c' : Crc) (d d' : Byte) :
    crcUpdate (c ^^^ c') (d ^^^ d') = crcUpdate c d ^^^ crcUpdate c' d' := by
  have hsum : (c ^^^ c') ^^^ (zext16 (d ^^^ d') <<< 8) =
      (c ^^^ (zext16 d <<< 8)) ^^^ (c' ^^^ (zext16 d' <<< 8)) := by
    simp only [zext16, BitVec.setWidth_xor, BitVec.shiftLeft_xor_distrib]
    ac_rfl
  rw [crcUpdate, hsum, crcShifts_xor]
  rfl

/-- The low half of the register meets none of the byte's bits (R100). -/
theorem getLsbD_xor_byte_low (c : Crc) (d : Byte) {i : Nat} (hi : i < 8) :
    (c ^^^ (zext16 d <<< 8)).getLsbD i = c.getLsbD i := by
  simp [hi]

/-- The high half of the register meets the byte (R100). -/
theorem getLsbD_xor_byte_high (c : Crc) (d : Byte) {i : Nat} (hlow : 8 ≤ i) (hi : i < 16) :
    (c ^^^ (zext16 d <<< 8)).getLsbD i = (c.getLsbD i ^^ d.getLsbD (i - 8)) := by
  simp [zext16, hi, hlow]

/-- Each equation of R102: one bit of the result followed back through the eight shifts. -/
theorem getLsbD_crcUpdate (c : Crc) (d : Byte) {i : Nat} (hi : i < 16) :
    (crcUpdate c d).getLsbD i = crcUpdateBit c d i := by
  simp only [crcUpdate, crcShifts]
  interval_cases i
  all_goals
    simp only [getLsbD_crcShift, ↓reduceIte, Nat.reduceSub, Nat.reduceLT, Nat.reduceLeDiff,
      Nat.reduceEqDiff, OfNat.ofNat_ne_zero, or_true, or_false, getLsbD_xor_byte_low,
      getLsbD_xor_byte_high, crcUpdateBit, Bool.xor_assoc, Bool.xor_comm, Bool.xor_left_comm]

/-- Settles O8: the three splits by `crcUpdate_xor`, the equations by `getLsbD_crcUpdate`. -/
theorem crcUpdateIsLinearWithGivenEquations : Obligations.CrcUpdateIsLinearWithGivenEquations := by
  unfold Obligations.CrcUpdateIsLinearWithGivenEquations
  refine ⟨fun c d => ?_, fun c c' => crcUpdate_xor c c' 0 0, crcUpdate_xor 0 0,
    fun c d i => getLsbD_crcUpdate c d⟩
  simpa using crcUpdate_xor c 0 0 d

/-! ## The table form -/

theorem crc_eq_xor_halves (c : Crc) : c = (c &&& 0x00FF#16) ^^^ (zext16 (c.extractLsb' 8 8) <<< 8) := by
  refine BitVec.eq_of_getLsbD_eq fun i hi => ?_
  have hmask : ∀ k < 16, (0x00FF#16).getLsbD k = decide (k < 8) := by decide
  rcases Nat.lt_or_ge i 8 with hlow | hhigh
  · rw [getLsbD_xor_byte_low _ _ hlow, BitVec.getLsbD_and, hmask i hi, decide_eq_true hlow,
      Bool.and_true]
  · rw [getLsbD_xor_byte_high _ _ hhigh hi, BitVec.getLsbD_and, hmask i hi,
      decide_eq_false hhigh.not_gt, Bool.and_false, Bool.false_xor, BitVec.getLsbD_extractLsb',
      Nat.add_sub_cancel' hhigh, decide_eq_true (by omega), Bool.true_and]

/-- The low half of the register only moves up: none of its bits leaves in eight shifts. -/
theorem crcUpdate_low_half (c : Crc) : crcUpdate (c &&& 0x00FF#16) 0#8 = (c &&& 0x00FF#16) <<< 8 := by
  have hle : (c &&& 0x00FF#16).toNat ≤ 255 := by
    rw [BitVec.toNat_and]
    exact Nat.and_le_right
  rw [crcUpdate, show zext16 0#8 <<< 8 = 0#16 from rfl, BitVec.xor_zero]
  exact crcShifts_of_small (by omega)

/-- The high half of the register and the byte enter `crc_update` by their sum only (R103). -/
theorem crcUpdate_high_half (h b : Byte) : crcUpdate (zext16 h <<< 8) b = crcTable (h ^^^ b) := by
  simp [crcTable, crcUpdate, zext16, BitVec.shiftLeft_xor_distrib]

/-- Settles O9: by linearity the two halves of the register are updated apart. -/
theorem crcTableFormAgrees : Obligations.CrcTableFormAgrees := by
  unfold Obligations.CrcTableFormAgrees
  refine ⟨fun c b => ?_, fun _ => rfl, by decide⟩
  calc crcUpdate c b
    _ = crcUpdate ((c &&& 0x00FF#16) ^^^ (zext16 (c.extractLsb' 8 8) <<< 8)) (0#8 ^^^ b) := by
      rw [← crc_eq_xor_halves, BitVec.zero_xor]
    _ = crcUpdate (c &&& 0x00FF#16) 0#8 ^^^ crcUpdate (zext16 (c.extractLsb' 8 8) <<< 8) b :=
      crcUpdate_xor _ _ _ _
    _ = ((c &&& 0x00FF#16) <<< 8) ^^^ crcTable (c.extractLsb' 8 8 ^^^ b) := by
      rw [crcUpdate_low_half, crcUpdate_high_half]

/-! ## Messages -/

/-- The fold is linear over GF(2) in the register and the message together (R108). -/
theorem foldl_crcUpdate_xor {a b : List Byte} (h : a.length = b.length) (c c' : Crc) :
    (List.zipWith (· ^^^ ·) a b).foldl crcUpdate (c ^^^ c') =
      a.foldl crcUpdate c ^^^ b.foldl crcUpdate c' := by
  induction a generalizing b c c' with
  | nil =>
    cases b with
    | nil => rfl
    | cons y b => cases h
  | cons x a ih =>
    cases b with
    | nil => cases h
    | cons y b =>
      simp only [List.zipWith_cons_cons, List.foldl_cons, crcUpdate_xor]
      exact ih (Nat.succ.inj h) _ _

theorem crcUpdate_injective_crc (b : Byte) : Function.Injective (crcUpdate · b) :=
  fun _ _ h => (BitVec.xor_left_inj _).1 (crcShifts_injective 8 h)

/-- Different bytes leave different registers: they differ in a bit of the high half. -/
theorem crcUpdate_injective_byte (c : Crc) : Function.Injective (crcUpdate c) := by
  intro b b' h
  have hsum := crcShifts_injective 8 h
  refine BitVec.eq_of_getLsbD_eq fun i hi => ?_
  have hbit := congrArg (·.getLsbD (i + 8)) hsum
  simpa only [getLsbD_xor_byte_high c _ (Nat.le_add_left 8 i) (Nat.add_lt_add_right hi 8),
    Bool.xor_right_inj, Nat.add_sub_cancel] using hbit

/-- The rest of a message keeps different registers apart. -/
theorem foldl_crcUpdate_injective (d : List Byte) : Function.Injective (d.foldl crcUpdate) := by
  induction d with
  | nil => exact Function.injective_id
  | cons b d ih => exact ih.comp (crcUpdate_injective_crc b)

theorem xor_bit_ne_self (b : Byte) {j : Nat} (hj : j < 8) : b ^^^ (1#8 <<< j) ≠ b := by
  have hbit : ∀ k < 8, 1#8 <<< k ≠ 0#8 := by decide
  exact fun h => hbit j hj ((BitVec.xor_right_inj b).1 (h.trans BitVec.xor_zero.symm))

/-- From any register, a message with one bit flipped leaves another register: the flipped bit makes the
registers differ, and the rest of the message keeps them apart. -/
theorem foldl_crcUpdate_flipBit_ne {d : List Byte} {k j : Nat} (hk : k < d.length) (hj : j < 8)
    (c : Crc) : (flipBit d k j).foldl crcUpdate c ≠ d.foldl crcUpdate c := by
  induction d generalizing k c with
  | nil => cases hk
  | cons b d ih =>
    cases k with
    | zero =>
      intro h
      exact xor_bit_ne_self b hj (crcUpdate_injective_byte c (foldl_crcUpdate_injective d h))
    | succ k => exact ih (Nat.lt_of_succ_lt_succ hk) (crcUpdate c b)

theorem crc0_replicate_zero (n : Nat) : crc0 (List.replicate n 0) = 0 := by
  induction n with
  | zero => rfl
  | succ n ih => exact ih

/-- Settles O11: affinity by `foldl_crcUpdate_xor`, where the two initial values cancel, and the flipped
bit by `foldl_crcUpdate_flipBit_ne`. -/
theorem crcIsAffineAndDetectsSingleBit : Obligations.CrcIsAffineAndDetectsSingleBit := by
  unfold Obligations.CrcIsAffineAndDetectsSingleBit
  refine ⟨rfl, fun a b hlen => ?_, fun d k j hk hj => foldl_crcUpdate_flipBit_ne hk hj _,
    fun n k j hk hj => ?_⟩
  · rw [crc16, crc16, ← foldl_crcUpdate_xor hlen, BitVec.xor_self]
    rfl
  · have hne := foldl_crcUpdate_flipBit_ne (d := List.replicate n 0) (by simpa using hk) hj 0
    rwa [← crc0, ← crc0, crc0_replicate_zero] at hne

/-! ## Values written out -/

/-- The check value of the ASCII digits 1 to 9 (R101). -/
theorem crc16_digits :
    crc16 [0x31, 0x32, 0x33, 0x34, 0x35, 0x36, 0x37, 0x38, 0x39] = 0x29B1 := by
  decide +kernel

/-- Settles O7, by evaluating the model on each input. -/
theorem crcKnownValues : Obligations.CrcKnownValues := by
  unfold Obligations.CrcKnownValues
  exact ⟨by decide, by decide, by decide, by decide +kernel, by decide +kernel, crc16_digits⟩

/-- Settles O10: `crc16` is a left fold by definition. -/
theorem crcOfConcatenationContinues : Obligations.CrcOfConcatenationContinues := by
  unfold Obligations.CrcOfConcatenationContinues
  exact ⟨fun _ => rfl, rfl, fun _ _ => List.foldl_append, fun _ _ => List.foldl_append, crc16_digits⟩

end Sys2Proof.Machine
end

section
/-!
PROOFS, the generator (R104, R105): what runs of its two operations leave in `GCRC`. From this O12 and
O13.
-/

namespace Sys2Proof.Machine

theorem exec_crcInit (s : State) : exec .crcInit s = .next { s with gcrc := 0xFFFF } := rfl

theorem exec_crcByte (b : Byte) (s : State) :
    exec (.crcByte b) s = .next { s with gcrc := crcUpdate s.gcrc b } := rfl

/-- A message absorbed byte by byte leaves the fold over it (R36, R105). -/
theorem runInstrs_crcBytes (d : List Byte) (s : State) :
    runInstrs (d.map .crcByte) s = .next { s with gcrc := d.foldl crcUpdate s.gcrc } := by
  induction d generalizing s with
  | nil => rfl
  | cons b d ih => rw [List.map_cons, runInstrs_cons_of_next (exec_crcByte b s), ih, List.foldl_cons]

/-- A message absorbed after `CRC_INIT` leaves its `crc16` (R104, R105). -/
theorem runInstrs_crcInit_crcBytes (d : List Byte) (s : State) :
    runInstrs (.crcInit :: d.map .crcByte) s = .next { s with gcrc := crc16 d } := by
  rw [runInstrs_cons_of_next (exec_crcInit s), runInstrs_crcBytes]
  rfl

/-- Settles O13: the words by the decoder's laws, the message by `runInstrs_crcInit_crcBytes`. -/
theorem crcByteAbsorbsByte : Obligations.CrcByteAbsorbsByte := by
  unfold Obligations.CrcByteAbsorbsByte
  exact ⟨fun b => ⟨decode_opWord_crcByte b, rfl⟩, fun s b => exec_crcByte b s,
    fun s d => runInstrs_crcInit_crcBytes d s, by decide, by decide, by decide⟩

/-- Settles O12: at an edge with both requests the generator restarts and then absorbs the message of
the one byte. -/
theorem crcInitRestartsGenerator : Obligations.CrcInitRestartsGenerator := by
  unfold Obligations.CrcInitRestartsGenerator
  obtain ⟨hignored, -⟩ := ignoredDataSelectsSameOperation
  refine ⟨fun d => (hignored d).2.1, rfl, exec_crcInit, fun s => ?twice, rfl, fun s b hin => ?edge⟩
  case twice => rw [runInstrs_cons_of_next (exec_crcInit s)]; rfl
  case edge =>
    rw [step_of_edge hin, clockEdge_of_not_rst _ rfl]
    exact ⟨_, runInstrs_crcInit_crcBytes [b] _, rfl⟩

end Sys2Proof.Machine
end

section
/-!
PROOFS, the parser over streams (R38, R149): an `RX_BYTE` is the transition table of the abstract parser,
and so are runs of them. From this the round trip O25.
-/

namespace Sys2Proof.Machine

/-! ## A run of `RX_BYTE` follows the transition table -/

/-- What an `RX_BYTE` with this outcome observes (R11). -/
def FeedOutcome.observed (o : FeedOutcome) : Obs := .rx o.register o.payload

/-- `Feeds s os t ps`: from `s` to `t` the parser has gone to the abstract state `ps` with the outcomes
`os`: each is observed, the last one stands in `ROUT`, and the last payload among them is the result. -/
structure Feeds (s : State) (os : List FeedOutcome) (t : State) (ps : ParserState) : Prop where
  view : t.parserView = some ps
  obs : t.obs = s.obs ++ os.map FeedOutcome.observed
  rout : t.rout = os.foldl (fun _ o => o.register) s.rout
  result : t.resultView = os.foldl (fun r o => o.payload.or r) s.resultView

theorem Feeds.refl {s : State} {ps : ParserState} (h : s.parserView = some ps) : Feeds s [] s ps :=
  ⟨h, (List.append_nil _).symm, rfl, rfl⟩

theorem Feeds.trans {s t u : State} {ps ps' : ParserState} {os os' : List FeedOutcome}
    (h₁ : Feeds s os t ps) (h₂ : Feeds t os' u ps') : Feeds s (os ++ os') u ps' where
  view := h₂.view
  obs := by rw [h₂.obs, h₁.obs, List.map_append, List.append_assoc]
  rout := by rw [h₂.rout, h₁.rout, List.foldl_append]
  result := by rw [h₂.result, h₁.result, List.foldl_append]

theorem State.resultView_congr {s t : State} (hlen : t.rlen = s.rlen) (hbuf : t.rbuf = s.rbuf)
    (hvalid : t.rvalid = s.rvalid) : t.resultView = s.resultView := by
  rw [State.resultView, State.resultView, hvalid, hlen,
    State.prefixOf_of_space_eq (sp := .rbuf) hbuf]

/-- A move reaches the abstract state of the transition table (R149). -/
theorem FeedMove.parserView_eq {b : Byte} {s u : State} {ph : Phase} {o : RxOutcome} {ps : ParserState}
    (h : FeedMove b s ph u o) (hph : s.pst = ph.code) (hview : s.parserView = some ps)
    (hlen : ps.lengthsOk = true) : u.parserView = some (feedAbstract ps b).1 := by
  rw [parserView_of_code hph] at hview
  cases h with
  | header1Found hb =>
    cases hview
    rw [parserView_of_code (ph := .h2) rfl, feedAbstract, if_pos hb]
  | header1Missed hb =>
    cases hview
    rw [parserView_of_code hph, feedAbstract, if_neg hb]
  | header2Found hb =>
    cases hview
    rw [parserView_of_code (ph := .len) rfl, feedAbstract, if_pos hb]
  | header2Missed hb =>
    cases hview
    rw [parserView_of_code (ph := .h1) rfl, feedAbstract, if_neg hb]
  | zeroLength hb =>
    cases hview
    subst hb
    rw [parserView_of_code (ph := .crch) rfl, feedAbstract, if_pos rfl]
    rfl
  | positiveLength hb =>
    cases hview
    rw [parserView_of_code (ph := .pay) rfl, feedAbstract, if_neg hb]
    rfl
  | lastPayloadByte hi hlast =>
    cases hview
    have hlt : s.pcnt.toNat < s.plen.toNat := by simpa using hlen
    have hsucc : s.pcnt.toNat + 1 = s.plen.toNat := by rw [← hlast, toNat_succ_of_lt hlt]
    have happend := prefixOf_append_byte s .pbuf s.pcnt.toNat b
    rw [hsucc] at happend
    rw [parserView_of_code (ph := .crch) rfl, feedAbstract, if_pos (by simpa using hsucc), ← happend]
    rfl
  | payloadByte hi hmore =>
    cases hview
    have hlt : s.pcnt.toNat < s.plen.toNat := by simpa using hlen
    have hsucc : s.pcnt.toNat + 1 ≠ s.plen.toNat := by
      rw [← toNat_succ_of_lt hlt]
      exact fun heq => hmore (BitVec.eq_of_toNat_eq heq)
    have happend := prefixOf_append_byte s .pbuf s.pcnt.toNat b
    rw [← toNat_succ_of_lt hlt] at happend
    rw [feedAbstract, if_neg (by simpa using hsucc), ← happend]
    exact parserView_of_code (s := (s.setSpace .pbuf (s.pbuf.write s.pcnt.toNat b)).countPayloadByte) hph
  | crcHigh =>
    cases hview
    rw [parserView_of_code (ph := .crcl) rfl]
    rfl
  | crcMatch hcrc =>
    cases hview
    rw [parserView_of_code (ph := .h1) rfl, feedAbstract, if_pos hcrc]
  | crcMismatch hcrc =>
    cases hview
    rw [parserView_of_code (ph := .h1) rfl, feedAbstract, if_neg hcrc]

/-- Only `COMPLETE` carries a payload (R11). -/
theorem State.outcomePayload_of_ne {o : RxOutcome} (s : State) (h : o ≠ .complete) :
    s.outcomePayload o = none :=
  if_neg h

/-- A move has the outcome of the transition table, and delivers its payload (R147, R149). -/
theorem FeedMove.outcome_eq {b : Byte} {s u : State} {ph : Phase} {o : RxOutcome} {ps : ParserState}
    (h : FeedMove b s ph u o) (hph : s.pst = ph.code) (hview : s.parserView = some ps) :
    o = (feedAbstract ps b).2.register ∧ u.outcomePayload o = (feedAbstract ps b).2.payload := by
  rw [parserView_of_code hph] at hview
  cases h with
  | crcMatch hcrc =>
    cases hview
    have hread := prefixOf_writeFrom s.parserClear .rbuf (s.prefixOf .pbuf s.plen.toNat)
    rw [State.prefixOf_length] at hread
    have hlen : (lengthByte s.plen.toNat).toNat = s.plen.toNat := lengthByte_toNat (plen_le_bufBytes _)
    rw [feedAbstract, if_pos hcrc]
    refine ⟨rfl, (if_pos rfl).trans (congrArg some ?_)⟩
    rw [State.markResult_rlen, hlen]
    exact hread
  | crcMismatch hcrc =>
    cases hview
    rw [feedAbstract, if_neg hcrc]
    exact ⟨rfl, State.outcomePayload_of_ne _ (by decide)⟩
  | _ =>
    cases hview
    exact ⟨rfl, State.outcomePayload_of_ne _ (by decide)⟩

/-- The result after a move is the payload it delivers, and the one before if it delivers none (R148). -/
theorem FeedMove.resultView_eq {b : Byte} {s u : State} {ph : Phase} {o : RxOutcome}
    (h : FeedMove b s ph u o) : u.resultView = (u.outcomePayload o).or s.resultView := by
  by_cases ho : o = .complete
  · cases h with
    | crcMatch => rfl
    | _ => cases ho
  · obtain ⟨hlen, hbuf, hvalid⟩ := h.result_of_not_complete ho
    rw [State.outcomePayload_of_ne u ho, Option.none_or]
    exact State.resultView_congr hlen hbuf hvalid

/-- A move follows the transition table (R149). -/
theorem FeedMove.feeds {b : Byte} {s u : State} {ph : Phase} {o : RxOutcome} {ps : ParserState}
    (h : FeedMove b s ph u o) (hph : s.pst = ph.code) (hview : s.parserView = some ps)
    (hlen : ps.lengthsOk = true) :
    Feeds s [(feedAbstract ps b).2] (u.recordOutcome o) (feedAbstract ps b).1 := by
  obtain ⟨ho, hpayload⟩ := h.outcome_eq hph hview
  have hobs : u.obs = s.obs := by rw [h.writes]
  refine ⟨h.parserView_eq hph hview hlen, ?_, ho, ?_⟩
  · rw [State.recordOutcome_obs, hobs, hpayload, ho]
    rfl
  · exact h.resultView_eq.trans (by rw [hpayload]; rfl)

/-- A parser within the lengths of R38 has a move for every byte (R152). -/
theorem exists_feedMove {s : State} {ps : ParserState} (b : Byte) (hview : s.parserView = some ps)
    (hlen : ps.lengthsOk = true) : ∃ ph u o, s.pst = ph.code ∧ FeedMove b s ph u o := by
  cases hph : phaseOf s.pst with
  | none => simp [State.parserView, hph] at hview
  | some ph =>
    have hph := phaseOf_eq_some hph
    suffices hfeed : ∃ u o, feed ph b s = .ok (u, o) by
      obtain ⟨u, o, hfeed⟩ := hfeed
      exact ⟨ph, u, o, hph, feedMove_of_feed hfeed⟩
    cases ph with
    | h1 => exact ⟨_, _, rfl⟩
    | h2 => exact ⟨_, _, rfl⟩
    | len => exact ⟨_, _, stepLen_eq b s⟩
    | pay =>
      rw [parserView_of_code hph] at hview
      cases hview
      have hlt : s.pcnt.toNat < s.plen.toNat := by simpa using hlen
      exact ⟨_, _, stepPay_eq b (hlt.trans_le (plen_le_bufBytes s.plen))⟩
    | crch => exact ⟨_, _, rfl⟩
    | crcl =>
      by_cases hcrc : crcPair s.pcrch b = crc16 (s.prefixOf .pbuf s.plen.toNat)
      · exact ⟨_, _, (FeedMove.crcMatch hcrc).feed_eq⟩
      · exact ⟨_, _, (FeedMove.crcMismatch hcrc).feed_eq⟩

/-- On the registers `RX_BYTE` is the transition table (R38, R149). -/
theorem exec_rxByte_feeds {s : State} {ps : ParserState} (b : Byte) (hview : s.parserView = some ps)
    (hlen : ps.lengthsOk = true) :
    ∃ t, exec (.rxByte b) s = .next t ∧ Feeds s [(feedAbstract ps b).2] t (feedAbstract ps b).1 := by
  obtain ⟨ph, u, o, hph, hm⟩ := exists_feedMove b hview hlen
  exact ⟨_, execRxByte_of_feed hph hm.feed_eq, hm.feeds hph hview hlen⟩

/-- A stream of bytes runs as the abstract parser takes it (R38, R149). -/
theorem runInstrs_rxBytes_feeds {s : State} {ps : ParserState} (bs : List Byte)
    (hview : s.parserView = some ps) (hlen : ps.lengthsOk = true) :
    ∃ t, runInstrs (rxBytes bs) s = .next t ∧ Feeds s (feedStream ps bs).2 t (feedStream ps bs).1 := by
  induction bs generalizing s ps with
  | nil => exact ⟨s, rfl, .refl hview⟩
  | cons b bs ih =>
    obtain ⟨t, ht, hfirst⟩ := exec_rxByte_feeds b hview hlen
    obtain ⟨u, hu, hrest⟩ := ih hfirst.view (feedAbstract_lengthsOk b hlen)
    exact ⟨u, (runInstrs_cons_of_next ht).trans hu, hfirst.trans hrest⟩

/-! ## The abstract parser on a frame -/

theorem feedStream_cons (ps : ParserState) (b : Byte) (bs : List Byte) :
    feedStream ps (b :: bs) =
      ((feedStream (feedAbstract ps b).1 bs).1,
        (feedAbstract ps b).2 :: (feedStream (feedAbstract ps b).1 bs).2) := rfl

theorem feedStream_append (ps : ParserState) (as bs : List Byte) :
    feedStream ps (as ++ bs) =
      ((feedStream (feedStream ps as).1 bs).1,
        (feedStream ps as).2 ++ (feedStream (feedStream ps as).1 bs).2) := by
  induction as generalizing ps with
  | nil => rfl
  | cons a as ih => simp only [List.cons_append, feedStream_cons, ih]

/-- The rest of a payload, up to its declared length, goes on to AwaitCrcHi with the whole (R145). -/
theorem feedStream_pay {n : Fin 256} {acc p : List Byte} (hp : p ≠ [])
    (hn : acc.length + p.length = n.val) :
    feedStream (.pay n acc) p = (.crch (acc ++ p), List.replicate p.length .needMore) := by
  induction p generalizing acc with
  | nil => exact absurd rfl hp
  | cons b p ih =>
    rw [List.length_cons] at hn
    rw [feedStream_cons]
    by_cases hlast : p = []
    · subst hlast
      rw [feedAbstract, if_pos (by simpa using hn)]
      rfl
    · have hpos := List.length_pos_iff.2 hlast
      rw [feedAbstract, if_neg (by omega), ih hlast (by simp; omega), List.append_assoc]
      rfl

/-- A length byte and its payload go on to AwaitCrcHi (R144, R145). -/
theorem feedStream_len {p : List Byte} (hp : p.length ≤ 255) :
    feedStream .len (lengthByte p.length :: p) =
      (.crch p, List.replicate (p.length + 1) .needMore) := by
  have hlen := lengthByte_toNat hp
  rw [feedStream_cons, feedAbstract]
  by_cases hempty : p = []
  · subst hempty
    rfl
  · have hpos := List.length_pos_iff.2 hempty
    have hne : lengthByte p.length ≠ 0 := fun h0 => by
      rw [h0] at hlen
      exact absurd hlen (Nat.ne_of_lt hpos)
    rw [if_neg hne, feedStream_pay hempty (by simpa using hlen.symm)]
    rfl

/-- The outcome of a frame's last byte: its payload if the two CRC bytes are the payload's (R147). -/
def frameOutcome (p : List Byte) (hi lo : Byte) : FeedOutcome :=
  if crcPair hi lo = crc16 p then .complete p else .resync

/-- Two header bytes, a payload with its length byte, and two bytes for the CRC take the parser back to
AwaitHeader1, with `NEED_MORE` on every byte but the last (R66, R149). -/
theorem feedStream_framed {p : List Byte} (hp : p.length ≤ 255) (hi lo : Byte) :
    feedStream .h1 (Config.hdr1 :: Config.hdr2 :: lengthByte p.length :: (p ++ [hi, lo])) =
      (.h1, List.replicate (p.length + 4) .needMore ++ [frameOutcome p hi lo]) := by
  have hlast : feedStream (.crch p) [hi, lo] = (.h1, [.needMore, frameOutcome p hi lo]) := by
    simp only [feedStream, feedAbstract, frameOutcome]
    split <;> rfl
  have hheader : feedStream .h1 [Config.hdr1, Config.hdr2] = (.len, [.needMore, .needMore]) := rfl
  have hneedMore : List.replicate (p.length + 4) FeedOutcome.needMore =
      [.needMore, .needMore] ++ List.replicate (p.length + 1) .needMore ++ [.needMore] := by
    rw [show p.length + 4 = 2 + (p.length + 1) + 1 by omega, List.replicate_succ', List.replicate_add]
    rfl
  calc feedStream .h1 (Config.hdr1 :: Config.hdr2 :: lengthByte p.length :: (p ++ [hi, lo]))
    _ = feedStream .h1 ([Config.hdr1, Config.hdr2] ++ (lengthByte p.length :: p) ++ [hi, lo]) := by simp
    _ = _ := by
      rw [feedStream_append, feedStream_append, hheader, feedStream_len hp, hlast, hneedMore]
      simp

@[simp] theorem crcPair_crcHi_crcLo (c : Crc) : crcPair (crcHi c) (crcLo c) = c := by
  rw [crcPair, crcHi, crcLo, BitVec.extractLsb'_append_extractLsb'_eq_extractLsb' (by rfl)]
  exact BitVec.extractLsb'_eq_self

/-- The frame of a payload completes with it (R126). -/
theorem feedStream_frameOf {p : List Byte} (hp : p.length ≤ 255) :
    feedStream .h1 (frameOf p) = (.h1, List.replicate (p.length + 4) .needMore ++ [.complete p]) := by
  rw [frameOf_eq_cons, feedStream_framed hp, frameOutcome, crcPair_crcHi_crcLo, if_pos rfl]

theorem parserView_eq_h1_iff {s : State} : s.parserView = some .h1 ↔ s.pst = 0 := by
  refine ⟨fun hview => ?_, parserView_of_code (ph := .h1)⟩
  cases hph : phaseOf s.pst with
  | none => simp [State.parserView, hph] at hview
  | some ph =>
    have hph := phaseOf_eq_some hph
    rw [parserView_of_code hph] at hview
    cases ph with
    | h1 => exact hph
    | _ => cases hview

/-- `NEED_MORE` delivers no payload, so a run of it keeps the result (R148). -/
theorem foldl_payload_needMore (n : Nat) (r : Option (List Byte)) :
    (List.replicate n FeedOutcome.needMore).foldl (fun r o => o.payload.or r) r = r := by
  induction n with
  | zero => rfl
  | succ n ih => exact ih

/-- The shape of a run over a frame: after bytes that need more, the last one's outcome is observed, it
stands in `ROUT`, and its payload is the result. -/
theorem Feeds.of_needMore_append {s t : State} {ps : ParserState} {n : Nat} {o : FeedOutcome}
    (h : Feeds s (List.replicate n .needMore ++ [o]) t ps) :
    t.obs = s.obs ++ needMoreObs n ++ [o.observed] ∧ t.rout = o.register ∧
      t.resultView = o.payload.or s.resultView := by
  refine ⟨?_, ?_, ?_⟩
  · rw [h.obs, List.map_append, List.map_replicate, List.append_assoc]
    rfl
  · rw [h.rout, List.foldl_append]
    rfl
  · rw [h.result, List.foldl_append, foldl_payload_needMore]
    rfl

/-- Settles O25: the registers follow the abstract parser, which completes on the frame. -/
theorem builtFrameIsReceived : Obligations.BuiltFrameIsReceived := by
  unfold Obligations.BuiltFrameIsReceived
  intro s p hpst h₁ h₂
  obtain ⟨t, hrun, hfeeds⟩ := runInstrs_rxBytes_feeds (frameOf p) (parserView_eq_h1_iff.2 hpst) rfl
  rw [feedStream_frameOf h₂] at hfeeds
  obtain ⟨hobs, hrout, hresult⟩ := hfeeds.of_needMore_append
  exact ⟨buildFrame_of_fits h₁ h₂, t, hrun, hobs, parserView_eq_h1_iff.1 hfeeds.view, hrout, hresult⟩

end Sys2Proof.Machine
end

section
/-!
PROOFS, the frame builder (R120 to R125): what `build_frame` answers, what an accepted `TX_PUSH` and
`TX_BUILD` leave, and a run of pushes with its build. From this O31, O33, O34 and O36.
-/

namespace Sys2Proof.Machine

/-! ## `build_frame` -/

theorem buildFrame_of_tooLarge {p : List Byte} (h : 255 < p.length) : buildFrame p = .payloadTooLarge :=
  if_pos h

theorem buildFrame_of_empty {p : List Byte} (h : p.length = 0) : buildFrame p = .emptyPayload := by
  rw [buildFrame, Config.maxPayload, Config.minBuildPayload, if_neg (by omega), if_pos (by omega)]

/-- Settles O31: one case per answer of `build_frame`. -/
theorem buildFrameGivesFrameOrError : Obligations.BuildFrameGivesFrameOrError := by
  unfold Obligations.BuildFrameGivesFrameOrError
  exact fun p => ⟨buildFrame_of_tooLarge, buildFrame_of_empty,
    fun h₁ h₂ => ⟨frameOf p, buildFrame_of_fits h₁ h₂, rfl⟩⟩

/-! ## The accepted operations -/

section Accepted

variable {s : State} (hq : s.txq = [])
include hq

theorem exec_txPush_of_ready (b : Byte) : exec (.txPush b) s = orFault (pushByte b s) :=
  if_pos (State.txReady_iff.2 hq)

theorem exec_txBuild_of_ready : exec .txBuild s = orFault (buildPushed s) :=
  if_pos (State.txReady_iff.2 hq)

/-- A push that fits stores its byte and counts it. -/
theorem exec_txPush_of_fits (b : Byte) (h : s.tcnt.toNat ≤ 254) :
    exec (.txPush b) s =
      .next ((s.setSpace .tbuf (s.tbuf.write s.tcnt.toNat b)).setTcnt (s.tcnt + 1)) := by
  rw [exec_txPush_of_ready hq, pushByte_of_fits h, orFault_ok]

/-- The 256th push is counted only. -/
theorem exec_txPush_of_last (b : Byte) (h : s.tcnt.toNat = 255) :
    exec (.txPush b) s = .next (s.setTcnt 256) := by
  rw [exec_txPush_of_ready hq, pushByte_of_last h, orFault_ok]

/-- Later pushes change nothing. -/
theorem exec_txPush_of_full (b : Byte) (h : 255 < s.tcnt.toNat) : exec (.txPush b) s = .next s := by
  rw [exec_txPush_of_ready hq, pushByte_of_full h, orFault_ok]

theorem exec_txBuild_of_tooLarge (h : s.tcnt.toNat = 256) :
    exec .txBuild s = .next (s.recordStatus .payloadTooLarge none) := by
  rw [exec_txBuild_of_ready hq, buildPushed_of_tooLarge h, orFault_ok]

theorem exec_txBuild_of_empty (h : s.tcnt.toNat = 0) :
    exec .txBuild s = .next (s.recordStatus .emptyPayload none) := by
  rw [exec_txBuild_of_ready hq, buildPushed_of_empty h, orFault_ok]

theorem exec_txBuild_of_fits (h₁ : 1 ≤ s.tcnt.toNat) (h₂ : s.tcnt.toNat ≤ 255) :
    exec .txBuild s =
      .next ((s.queueFrame (frameOf (s.prefixOf .tbuf s.tcnt.toNat))).recordStatus .ok
        (some (frameOf (s.prefixOf .tbuf s.tcnt.toNat)))) := by
  rw [exec_txBuild_of_ready hq, buildPushed_of_fits h₁ h₂, orFault_ok]

/-- Every accepted build clears `TCNT`, whatever its result is (R123). -/
theorem exec_txBuild_tcnt {t : State} (h : exec .txBuild s = .next t) : t.tcnt = 0 := by
  rw [exec_txBuild_of_ready hq] at h
  rcases buildPushed_ok (orFault_next h) with ⟨-, rfl⟩ | ⟨-, rfl⟩ | ⟨-, -, rfl⟩ <;> rfl

end Accepted

/-! ## Requests while a frame is sent -/

/-- While a byte is queued, an edge accepts no operation of the builder (R84). -/
theorem groupOf_ne_builder_of_mem_acceptedInstrs {p : InPorts} {q : List Byte} {i : Instr}
    (hq : q ≠ []) (h : i ∈ acceptedInstrs p q) : groupOf i ≠ .builder := by
  simp only [acceptedInstrs, hq, and_false, if_false, List.append_nil, List.mem_append,
    List.mem_ite_nil_right, List.mem_singleton] at h
  rcases h with (⟨-, rfl⟩ | ⟨-, rfl⟩) | ⟨-, rfl⟩ <;> simp [groupOf]

theorem groupOf_decode_ne_builder_of_mem_acceptedWords {p : InPorts} {s : State} {w : OpWord}
    (hq : s.txq ≠ []) (h : w ∈ acceptedWords p s) : groupOf (decode w) ≠ .builder := by
  have hmem := List.mem_map_of_mem (f := decode) h
  rw [map_decode_acceptedWords] at hmem
  split at hmem
  · rw [List.mem_singleton.1 hmem]
    simp [groupOf]
  · exact groupOf_ne_builder_of_mem_acceptedInstrs hq hmem

/-- Settles O33: one case per range of `TCNT`; the store's index by the laws of the buffers. -/
theorem txPushAppendsOrSaturates : Obligations.TxPushAppendsOrSaturates := by
  unfold Obligations.TxPushAppendsOrSaturates
  refine fun b s => ⟨decode_opWord_txPush b, rfl, fun hq hcnt => ?fits,
    fun hq hcnt => exec_txPush_of_last hq b hcnt, fun hq hcnt => exec_txPush_of_full hq b (by omega),
    fun hq p w hw hdec => ?busy⟩
  case fits =>
    refine ⟨_, exec_txPush_of_fits hq b hcnt, rfl, ?_, ?_, fun i hi => ?_⟩
    · rw [State.setTcnt_tcnt]
      bv_omega
    · simp [State.byteAt]
    · exact State.byteAt_of_space_write (sp := .tbuf) rfl hi
  case busy =>
    exact groupOf_decode_ne_builder_of_mem_acceptedWords hq hw (by rw [hdec]; rfl)

/-- Settles O34: one case per range of `TCNT`. A build that has cleared it leaves nothing to frame. -/
theorem txBuildFramesPushedPayload : Obligations.TxBuildFramesPushedPayload := by
  unfold Obligations.TxBuildFramesPushedPayload
  have hdecode : ∀ d : Byte, decode (opWord 0x5 d) = .txBuild := fun d => by
    obtain ⟨hignored, -⟩ := ignoredDataSelectsSameOperation
    obtain ⟨-, -, hbuild⟩ := hignored d
    exact hbuild
  refine ⟨hdecode, rfl, fun s => ⟨exec_txBuild_of_tooLarge, exec_txBuild_of_empty,
    fun hq h₁ h₂ => ?fits, fun hq p w hw hdec => ?busy, fun t hq h₁ h₂ h => ?twice⟩⟩
  case fits =>
    exact ⟨_, buildFrame_of_fits (by simpa using h₁) (by simpa using h₂), exec_txBuild_of_fits hq h₁ h₂⟩
  case busy =>
    exact groupOf_decode_ne_builder_of_mem_acceptedWords hq hw (by rw [hdec]; rfl)
  case twice =>
    have hcleared : t.tcnt = 0 := exec_txBuild_tcnt hq h
    rw [exec_txBuild_of_fits hq h₁ h₂] at h
    refine ⟨by cases h; rfl, _, exec_txBuild_of_empty rfl ?_, rfl⟩
    exact congrArg BitVec.toNat hcleared

/-! ## A run of pushes and its build -/

/-- The builder is ready and holds what pushes of these bytes leave: their number, 256 standing for any
number above 255, and the bytes themselves while they fit (R31, R32, R122). -/
structure HoldsPushed (s : State) (p : List Byte) : Prop where
  ready : s.txq = []
  count : s.tcnt.toNat = min p.length 256
  bytes : p.length ≤ 255 → s.prefixOf .tbuf p.length = p

theorem HoldsPushed.nil {s : State} (hcnt : s.tcnt = 0) (hq : s.txq = []) : HoldsPushed s [] :=
  ⟨hq, by rw [hcnt]; rfl, fun _ => rfl⟩

/-- A push appends to what the builder holds. -/
theorem HoldsPushed.exec_txPush {s : State} {p : List Byte} (h : HoldsPushed s p) (b : Byte) :
    ∃ t, exec (.txPush b) s = .next t ∧ HoldsPushed t (p ++ [b]) := by
  have hcnt := h.count
  rcases Nat.lt_trichotomy p.length 255 with hlt | heq | hgt
  · have hcnt : s.tcnt.toNat = p.length := by omega
    refine ⟨_, exec_txPush_of_fits h.ready b (by omega), h.ready, ?_, fun _ => ?_⟩
    · rw [State.setTcnt_tcnt, List.length_append, List.length_singleton]
      bv_omega
    · have happend := prefixOf_append_byte s .tbuf p.length b
      rw [h.bytes (by omega)] at happend
      rw [hcnt, List.length_append, List.length_singleton]
      exact happend
  · refine ⟨_, exec_txPush_of_last h.ready b (by omega), h.ready, ?_, fun hle => ?_⟩
    · simp [heq]
    · simp [heq] at hle
  · refine ⟨s, exec_txPush_of_full h.ready b (by omega), h.ready, ?_, fun hle => ?_⟩
    · rw [List.length_append]
      omega
    · rw [List.length_append] at hle
      omega

theorem HoldsPushed.runInstrs_txPush {s : State} {acc : List Byte} (h : HoldsPushed s acc)
    (p : List Byte) : ∃ t, runInstrs (p.map .txPush) s = .next t ∧ HoldsPushed t (acc ++ p) := by
  induction p generalizing s acc with
  | nil => exact ⟨s, rfl, by rwa [List.append_nil]⟩
  | cons b p ih =>
    obtain ⟨t, ht, hpushed⟩ := h.exec_txPush b
    obtain ⟨u, hu, hall⟩ := ih hpushed
    exact ⟨u, (runInstrs_cons_of_next ht).trans hu, by rwa [List.append_cons]⟩

/-- Pushes observe nothing (R11). -/
theorem runInstrs_txPush_obs {p : List Byte} {s t : State}
    (h : runInstrs (p.map .txPush) s = .next t) : t.obs = s.obs := by
  induction p generalizing s with
  | nil => cases h; rfl
  | cons b p ih =>
    obtain ⟨u, hu, hrun⟩ := runInstrs_cons_next h
    rw [ih hrun, exec_obs_of_no_observation rfl hu]

/-- A build takes the payload that the pushes left to `build_frame` (R125). -/
theorem HoldsPushed.exec_txBuild {s : State} {p : List Byte} (h : HoldsPushed s p) :
    exec .txBuild s = .next (recordBuild (buildFrame p) s) := by
  have hcnt := h.count
  by_cases hlarge : 255 < p.length
  · rw [exec_txBuild_of_tooLarge h.ready (by omega), buildFrame_of_tooLarge hlarge]
    rfl
  · by_cases hempty : p.length = 0
    · rw [exec_txBuild_of_empty h.ready (by omega), buildFrame_of_empty hempty]
      rfl
    · have hcnt : s.tcnt.toNat = p.length := by omega
      rw [exec_txBuild_of_fits h.ready (by omega) (by omega), hcnt, h.bytes (by omega),
        buildFrame_of_fits (by omega) (by omega)]
      rfl

/-- Pushes and a build record `build_frame` of the bytes pushed (R125). -/
theorem runInstrs_txFrame {s : State} (p : List Byte) (hcnt : s.tcnt = 0) (hq : s.txq = []) :
    ∃ t, runInstrs (txFrame p) s = .next (recordBuild (buildFrame p) t) ∧ t.txq = [] ∧
      t.obs = s.obs := by
  obtain ⟨t, hpushes, hheld⟩ := (HoldsPushed.nil hcnt hq).runInstrs_txPush p
  refine ⟨t, ?_, hheld.ready, runInstrs_txPush_obs hpushes⟩
  rw [txFrame, runInstrs_append_of_next hpushes, runInstrs_cons_of_next hheld.exec_txBuild,
    runInstrs_nil, List.nil_append]

theorem recordBuild_tcnt (r : BuildResult) (s : State) : (recordBuild r s).tcnt = 0 := by
  cases r <;> rfl

/-- Settles O36: the pushes by induction, the build by what they leave. -/
theorem pushSequenceThenBuild : Obligations.PushSequenceThenBuild := by
  unfold Obligations.PushSequenceThenBuild
  refine ⟨⟨rfl, rfl⟩, fun s t hq => exec_txBuild_tcnt hq, fun s p hcnt hq => ?sequence,
    fun p hp => ?thirteenBytes⟩
  case sequence =>
    obtain ⟨t, hrun, htq, hobs⟩ := runInstrs_txFrame p hcnt hq
    refine ⟨_, hrun, recordBuild_tcnt _ t, fun h₁ h₂ => ?_, fun h => ?_, fun h => ?_⟩
    · have hbuild := buildFrame_of_fits h₁ h₂
      rw [hbuild, ← hobs]
      exact ⟨rfl, rfl, rfl, rfl⟩
    · rw [buildFrame_of_empty h, ← hobs]
      exact ⟨rfl, htq, rfl⟩
    · rw [buildFrame_of_tooLarge h, ← hobs]
      exact ⟨rfl, htq, rfl⟩
  case thirteenBytes =>
    exact ⟨frameOf p, buildFrame_of_fits (by omega) (by omega), by rw [frameOf_length, hp]⟩

end Sys2Proof.Machine
end

section
/-!
PROOFS, the serializer (R124, R242): what an edge does while a frame is sent, and that ready edges drain
the queue in order. From this O50 and O51.
-/

namespace Sys2Proof.Machine

/-- Operations of the other functions leave the builder alone (R20). -/
theorem runInstrs_sameBuilder {is : List Instr} {s t : State}
    (his : ∀ i ∈ is, groupOf i ≠ .builder) (h : runInstrs is s = .next t) : SameBuilder s t := by
  induction is generalizing s with
  | nil => cases h; exact .refl t
  | cons i is ih =>
    obtain ⟨u, hu, hrun⟩ := runInstrs_cons_next h
    obtain ⟨hi, his⟩ := List.forall_mem_cons.1 his
    obtain ⟨-, -, hfirst⟩ := groupsWrittenByOwnFunction i s u hu
    obtain ⟨hcnt, hbuf, hstat, hq, hout⟩ := hfirst hi
    obtain ⟨hcnt', hbuf', hstat', hq', hout'⟩ := ih his hrun
    exact ⟨hcnt'.trans hcnt, hbuf'.trans hbuf, hstat'.trans hstat, hq'.trans hq, hout'.trans hout⟩

/-- Settles O50: a busy edge runs operations of the other functions only, behind its handshake. -/
theorem busyEdgeOnlySends : Obligations.BusyEdgeOnlySends := by
  unfold Obligations.BusyEdgeOnlySends
  intro s t p rest b q hin hrst hq h
  have hbusy : s.txq ≠ [] := by simp [hq]
  obtain ⟨-, hstrobe⟩ := strobesPulseForOneCycle s t p rest hin h
  rw [step_of_edge hin, clockEdge_of_not_rst _ hrst, handshake_eq] at h
  obtain ⟨hcnt, hbuf, hstat, htxq, htxout⟩ :=
    runInstrs_sameBuilder (fun _ => groupOf_ne_builder_of_mem_acceptedInstrs hbusy) h
  refine ⟨hcnt, hbuf, hstat, by simpa [hbusy] using hstrobe, fun hready => ?sent, fun hready => ?kept⟩
  case sent => simpa [hready, hq] using And.intro htxq htxout
  case kept => simpa [hready, hq] using And.intro htxq htxout

/-- A ready edge without requests sends the first queued byte, and no more (R124). -/
theorem step_of_readyEdge {s : State} {rest : List Input}
    (h : s.inputs = .edge { txOutReady := true } :: rest) :
    step s = .next { s with inputs := rest }.tick.sendByte := by
  have hquiet : acceptedInstrs { txOutReady := true } s.txq = [] := by simp [acceptedInstrs]
  rw [step_of_edge h, clockEdge_of_not_rst _ rfl, hquiet, runInstrs_nil, handshake_eq]
  rfl

theorem core_run_succ_of_next {n : Nat} {s t : State} (h : step s = .next t) :
    core.run (n + 1) s = core.run n t := by
  have h : core.step s = .next t := h
  simp only [Host.Core.run, h]

/-- Settles O51: by induction on the edges, each of which sends the first byte of what is left. -/
theorem readyEdgesDrainQueueInOrder : Obligations.ReadyEdgesDrainQueueInOrder := by
  unfold Obligations.ReadyEdgesDrainQueueInOrder
  intro s n
  induction n generalizing s with
  | zero =>
    intro _ hin
    exact ⟨s, rfl, rfl, by simp, hin, .refl s, .refl s, rfl, rfl⟩
  | succ n ih =>
    intro hn hin
    have hstep := step_of_readyEdge hin
    obtain ⟨t, hrun, hq, hout, hinputs, hparser, hresult, hgenerator, hcnt⟩ :=
      ih { s with inputs := List.replicate n (.edge { txOutReady := true }) }.tick.sendByte
        (by simp; omega) rfl
    refine ⟨t, (core_run_succ_of_next hstep).trans hrun, ?_, ?_, hinputs, hparser, hresult,
      hgenerator, hcnt⟩
    · simpa [Nat.add_comm] using hq
    · simpa [List.take_add, Nat.add_comm n] using hout

end Sys2Proof.Machine
end

section
/-!
PROOFS, the parser on corrupted and arbitrary streams (R149, R155): the refinement of the transition table
(O23), that a frame with one flipped bit does not complete and costs no frame after it (O27), that only
frames complete (O28), and two streams written out (O26, O29).
-/

namespace Sys2Proof.Machine

/-! ## The refinement -/

/-- Settles O23: the invariant keeps the abstract state within its lengths, and there the registers
follow the table (`exec_rxByte_feeds`). -/
theorem rxByteRefinesTransitionTable : Obligations.RxByteRefinesTransitionTable := by
  unfold Obligations.RxByteRefinesTransitionTable
  intro b s ps hs hview
  obtain ⟨ps', hview', hlen⟩ := hs.parserView_lengthsOk
  obtain rfl : ps = ps' := Option.some.inj (hview.symm.trans hview')
  obtain ⟨t, ht, hfeeds⟩ := exec_rxByte_feeds b hview hlen
  have hstrobe : t.rxOutValid = true := by rw [exec_rxByte_writes ht]
  exact ⟨t, ht, hfeeds.view, hfeeds.rout, hstrobe, hfeeds.obs, hfeeds.result⟩

/-! ## A frame with one flipped bit -/

@[simp] theorem flipBit_length (f : List Byte) (k j : Nat) : (flipBit f k j).length = f.length :=
  List.length_modify ..

theorem flipBit_append_left {f : List Byte} {k : Nat} (g : List Byte) (j : Nat) (hk : k < f.length) :
    flipBit (f ++ g) k j = flipBit f k j ++ g := by
  induction f generalizing k with
  | nil => cases hk
  | cons b f ih =>
    cases k with
    | zero => rfl
    | succ k => exact congrArg (b :: ·) (ih (Nat.lt_of_succ_lt_succ hk))

theorem flipBit_append_right (f g : List Byte) (k j : Nat) :
    flipBit (f ++ g) (f.length + k) j = f ++ flipBit g k j :=
  List.modifyTailIdx_add ..

/-- Behind the three leading bytes of a frame a flip is one in its payload and CRC bytes (R66). -/
theorem flipBit_frameOf (p : List Byte) (i j : Nat) :
    flipBit (frameOf p) (3 + i) j = Config.hdr1 :: Config.hdr2 :: lengthByte p.length ::
      flipBit (p ++ [crcHi (crc16 p), crcLo (crc16 p)]) i j :=
  flipBit_append_right [Config.hdr1, Config.hdr2, lengthByte p.length] _ i j

/-- A flipped bit in a payload and its two CRC bytes leaves bytes whose CRC does not match: in the payload
it changes the CRC that is computed (R108), and in the CRC bytes the one that is received. -/
theorem exists_crc_mismatch_of_flipBit (p : List Byte) {i j : Nat} (hi : i < p.length + 2) (hj : j < 8) :
    ∃ p' hi' lo', p'.length = p.length ∧ crcPair hi' lo' ≠ crc16 p' ∧
      flipBit (p ++ [crcHi (crc16 p), crcLo (crc16 p)]) i j = p' ++ [hi', lo'] := by
  have hpair := crcPair_crcHi_crcLo (crc16 p)
  by_cases hpayload : i < p.length
  · have hne : crc16 (flipBit p i j) ≠ crc16 p := foldl_crcUpdate_flipBit_ne hpayload hj _
    exact ⟨flipBit p i j, _, _, flipBit_length p i j, hpair.trans_ne hne.symm,
      flipBit_append_left _ j hpayload⟩
  · obtain ⟨k, rfl⟩ := Nat.exists_eq_add_of_le (Nat.le_of_not_lt hpayload)
    have hk : k = 0 ∨ k = 1 := by omega
    rcases hk with rfl | rfl
    · refine ⟨p, _, _, rfl, fun h => ?_, flipBit_append_right p _ 0 j⟩
      exact xor_bit_ne_self _ hj ((BitVec.append_left_inj _).1 (h.trans hpair.symm))
    · refine ⟨p, _, _, rfl, fun h => ?_, flipBit_append_right p _ 1 j⟩
      exact xor_bit_ne_self _ hj ((BitVec.append_right_inj _).1 (h.trans hpair.symm))

/-- The frame of a payload with one bit flipped in its payload or CRC bytes ends with `RESYNC` (R155). -/
theorem feedStream_flipBit_frameOf {p : List Byte} {k j : Nat} (hp : p.length ≤ 255) (h₁ : 3 ≤ k)
    (h₂ : k < (frameOf p).length) (hj : j < 8) :
    feedStream .h1 (flipBit (frameOf p) k j) =
      (.h1, List.replicate (p.length + 4) .needMore ++ [.resync]) := by
  obtain ⟨i, rfl⟩ := Nat.exists_eq_add_of_le h₁
  rw [frameOf_length] at h₂
  obtain ⟨p', hi', lo', hlen, hne, hflip⟩ := exists_crc_mismatch_of_flipBit p (i := i) (by omega) hj
  rw [flipBit_frameOf, hflip, ← hlen, feedStream_framed (hlen.trans_le hp), frameOutcome, if_neg hne]

/-- From AwaitHeader1, a stream on which the abstract parser needs more bytes until the last one and is
then in AwaitHeader1 again does the same on the registers: what is observed, and what the result is. -/
theorem runInstrs_rxBytes_of_feedStream {s : State} {bs : List Byte} {n : Nat} {o : FeedOutcome}
    (hpst : s.pst = 0) (h : feedStream .h1 bs = (.h1, List.replicate n .needMore ++ [o])) :
    ∃ t, runInstrs (rxBytes bs) s = .next t ∧ t.obs = s.obs ++ needMoreObs n ++ [o.observed] ∧
      t.pst = 0 ∧ t.resultView = o.payload.or s.resultView := by
  obtain ⟨t, hrun, hfeeds⟩ := runInstrs_rxBytes_feeds bs (parserView_eq_h1_iff.2 hpst) rfl
  rw [h] at hfeeds
  obtain ⟨hobs, -, hresult⟩ := hfeeds.of_needMore_append
  exact ⟨t, hrun, hobs, parserView_eq_h1_iff.1 hfeeds.view, hresult⟩

/-- Settles O27: the flipped frame ends with `RESYNC` in AwaitHeader1, where the next frame completes. -/
theorem singleBitCorruptionResyncs : Obligations.SingleBitCorruptionResyncs := by
  unfold Obligations.SingleBitCorruptionResyncs
  intro s p q k j hpst hp hq h₁ h₂ hj
  obtain ⟨t, hrun, hobs, htpst, hresult⟩ :=
    runInstrs_rxBytes_of_feedStream hpst (feedStream_flipBit_frameOf hp h₁ h₂ hj)
  obtain ⟨u, hrun', hobs', -, -⟩ := runInstrs_rxBytes_of_feedStream htpst (feedStream_frameOf hq)
  exact ⟨t, u, hrun, hobs, htpst, hresult, hrun', hobs'⟩

/-! ## Only frames complete -/

/-- The bytes of the frame in progress that an abstract state stands for (R38, R66). -/
def ParserState.received : ParserState → List Byte
  | .h1 => []
  | .h2 => [Config.hdr1]
  | .len => [Config.hdr1, Config.hdr2]
  | .pay n acc => Config.hdr1 :: Config.hdr2 :: lengthByte n.val :: acc
  | .crch p => Config.hdr1 :: Config.hdr2 :: lengthByte p.length :: p
  | .crcl p hi => Config.hdr1 :: Config.hdr2 :: lengthByte p.length :: (p ++ [hi])

@[simp] theorem lengthByte_of_toNat (b : Byte) : lengthByte b.toNat = b := by
  rw [lengthByte, BitVec.ofNat_toNat, BitVec.setWidth_eq]

/-- After a byte the parser stands for the end of what it stood for and that byte (R149). -/
theorem received_feedAbstract_suffix (ps : ParserState) (b : Byte) :
    (feedAbstract ps b).1.received <:+ ps.received ++ [b] := by
  cases ps with
  | h1 | h2 =>
    rw [feedAbstract]
    split
    · next hb => rw [hb]; exact List.suffix_rfl
    · exact List.nil_suffix
  | len =>
    rw [feedAbstract]
    split
    · next hb => rw [hb]; exact List.suffix_rfl
    · simp [ParserState.received]
  | pay n acc =>
    rw [feedAbstract]
    split
    · next hlast => simp [ParserState.received, ← hlast]
    · exact List.suffix_rfl
  | crch p => exact List.suffix_rfl
  | crcl p hi => rw [feedAbstract]; split <;> exact List.nil_suffix

/-- After a stream the parser stands for the end of what it stood for and the stream. -/
theorem received_feedStream_suffix (ps : ParserState) (bs : List Byte) :
    (feedStream ps bs).1.received <:+ ps.received ++ bs := by
  induction bs generalizing ps with
  | nil => rw [List.append_nil]; exact List.suffix_rfl
  | cons b bs ih =>
    have hfirst : (feedAbstract ps b).1.received ++ bs <:+ ps.received ++ [b] ++ bs :=
      List.suffix_append_self_iff.2 (received_feedAbstract_suffix ps b)
    rw [List.append_cons]
    exact (ih _).trans hfirst

theorem feedStream_lengthsOk {ps : ParserState} (bs : List Byte) (h : ps.lengthsOk = true) :
    (feedStream ps bs).1.lengthsOk = true := by
  induction bs generalizing ps with
  | nil => exact h
  | cons b bs ih => exact ih (feedAbstract_lengthsOk b h)

/-- `COMPLETE` comes from AwaitCrcLo with a matching CRC only (R147). -/
theorem feedAbstract_eq_complete {ps : ParserState} {b : Byte} {p : List Byte}
    (h : (feedAbstract ps b).2 = .complete p) : ∃ hi, ps = .crcl p hi ∧ crcPair hi b = crc16 p := by
  cases ps with
  | crcl p' hi =>
    rw [feedAbstract] at h
    split at h
    · next hcrc => cases h; exact ⟨hi, rfl, hcrc⟩
    · cases h
  | _ => cases h

@[simp] theorem crcHi_crcPair (hi lo : Byte) : crcHi (crcPair hi lo) = hi :=
  BitVec.extractLsb'_append_eq_left

@[simp] theorem crcLo_crcPair (hi lo : Byte) : crcLo (crcPair hi lo) = lo :=
  BitVec.extractLsb'_append_eq_right

/-- What AwaitCrcLo stands for, with a low CRC byte that matches, is the payload's frame (R66). -/
theorem received_crcl_append {p : List Byte} {hi lo : Byte} (h : crcPair hi lo = crc16 p) :
    (ParserState.crcl p hi).received ++ [lo] = frameOf p := by
  rw [frameOf_eq_cons, ← h, crcHi_crcPair, crcLo_crcPair]
  simp [ParserState.received]

theorem FeedOutcome.eq_complete_of_observed {o : FeedOutcome} {p : List Byte}
    (h : o.observed = .rx .complete (some p)) : o = .complete p := by
  cases o with
  | complete p' => cases h; rfl
  | _ => cases h

/-- On the abstract parser: where the last byte of a stream completes, the stream ends with a frame. -/
theorem exists_frameOf_of_feedStream_complete {bs p : List Byte} {b : Byte}
    (h : (feedAbstract (feedStream .h1 bs).1 b).2 = .complete p) :
    p.length ≤ 255 ∧ ∃ pre, bs ++ [b] = pre ++ frameOf p := by
  obtain ⟨hi, hps, hcrc⟩ := feedAbstract_eq_complete h
  have hlen := feedStream_lengthsOk (ps := .h1) bs rfl
  obtain ⟨pre, hpre⟩ := received_feedStream_suffix .h1 bs
  rw [hps] at hlen hpre
  refine ⟨ParserState.lengthsOk_crcl.1 hlen, pre, ?_⟩
  rw [← received_crcl_append hcrc, ← List.append_assoc, hpre]
  rfl

/-- Settles O28: the last observation is the last byte's outcome in the abstract parser. -/
theorem completedPayloadWasFramed : Obligations.CompletedPayloadWasFramed := by
  unfold Obligations.CompletedPayloadWasFramed
  intro s t stream p hpst hne hrun hlast
  obtain ⟨bs, b, rfl⟩ := (List.eq_nil_or_concat' stream).resolve_left hne
  obtain ⟨t', hrun', hfeeds⟩ := runInstrs_rxBytes_feeds (bs ++ [b]) (parserView_eq_h1_iff.2 hpst) rfl
  obtain rfl : t = t' := Host.Outcome.next.inj (hrun.symm.trans hrun')
  have hobs := hfeeds.obs
  rw [feedStream_append, feedStream_cons, List.map_append, ← List.append_assoc] at hobs
  rw [hobs] at hlast
  have hcomplete := FeedOutcome.eq_complete_of_observed
    (Option.some.inj (List.getLast?_concat.symm.trans hlast))
  obtain ⟨hlen, pre, hpre⟩ := exists_frameOf_of_feedStream_complete hcomplete
  exact ⟨pre, hlen, hpre⟩

/-! ## Two streams written out -/

theorem State.result_of_resultView_nil {s : State} (h : s.resultView = some []) :
    s.rvalid = true ∧ s.rlen = 0 := by
  unfold State.resultView at h
  split at h
  · next hv =>
    have hlen := congrArg List.length (Option.some.inj h)
    rw [State.prefixOf_length] at hlen
    exact ⟨hv, BitVec.eq_of_toNat_eq hlen⟩
  · cases h

/-- Settles O26: the zero-length frame completes as every frame does. -/
theorem zeroLengthFrameIsReceived : Obligations.ZeroLengthFrameIsReceived := by
  unfold Obligations.ZeroLengthFrameIsReceived
  have hframe : frameOf [] = [0x47, 0x54, 0x00, 0xFF, 0xFF] := by decide
  refine ⟨hframe, buildFrame_of_empty rfl, fun s hpst => ?_⟩
  rw [← hframe]
  obtain ⟨t, hrun, hobs, htpst, hresult⟩ :=
    runInstrs_rxBytes_of_feedStream hpst (feedStream_frameOf (p := []) (Nat.zero_le 255))
  obtain ⟨hvalid, hlen⟩ := State.result_of_resultView_nil hresult
  exact ⟨t, hrun, hobs, htpst, hvalid, hlen⟩

/-- Settles O29: the second 0x47 is consumed, so what was the header is passed over byte by byte. -/
theorem strayHeaderByteLosesFrame : Obligations.StrayHeaderByteLosesFrame := by
  unfold Obligations.StrayHeaderByteLosesFrame
  intro s hpst
  have hlost : feedStream .h1 [0x47, 0x47, 0x54, 0x01, 0x01, 0xF1, 0xD1] =
      (.h1, List.replicate 6 .needMore ++ [.needMore]) := by decide
  obtain ⟨t, hrun, hobs, htpst, -⟩ := runInstrs_rxBytes_of_feedStream hpst hlost
  exact ⟨t, hrun, hobs.trans (List.append_assoc ..), htpst⟩

end Sys2Proof.Machine
end

section
/-!
PROOFS, the parser state by state (R141 to R147, R150, R152): each statement from the move that the byte
makes. From this O14 to O21 and O24.
-/

namespace Sys2Proof.Machine

/-- A move from the state that `PST` names is what `RX_BYTE` does (R140). -/
theorem FeedMove.exec_eq {b : Byte} {s u : State} {ph : Phase} {o : RxOutcome}
    (h : FeedMove b s ph u o) (hph : s.pst = ph.code) :
    exec (.rxByte b) s = .next (u.recordOutcome o) :=
  execRxByte_of_feed hph h.feed_eq

/-! ## Waiting for a frame -/

/-- Settles O14: one case per branch of AwaitHeader1. -/
theorem rxByteInAwaitHeader1 : Obligations.RxByteInAwaitHeader1 := by
  unfold Obligations.RxByteInAwaitHeader1
  intro b s hpst
  by_cases hb : b = 0x47
  · rw [(FeedMove.header1Found hb).exec_eq hpst, if_pos hb]
    rfl
  · rw [(FeedMove.header1Missed hb).exec_eq hpst, if_neg hb, ← hpst]
    rfl

/-- Settles O15: one case per branch of AwaitHeader2. -/
theorem rxByteInAwaitHeader2 : Obligations.RxByteInAwaitHeader2 := by
  unfold Obligations.RxByteInAwaitHeader2
  intro b s hpst
  by_cases hb : b = 0x54
  · rw [(FeedMove.header2Found hb).exec_eq hpst, if_pos hb]
    rfl
  · rw [(FeedMove.header2Missed hb).exec_eq hpst, if_neg hb]
    rfl

/-- Settles O16: one case per branch of AwaitLength that a byte can reach. -/
theorem rxByteInAwaitLength : Obligations.RxByteInAwaitLength := by
  unfold Obligations.RxByteInAwaitLength
  intro b s hpst
  by_cases hb : b = 0
  · rw [(FeedMove.zeroLength hb).exec_eq hpst, if_pos hb]
    rfl
  · rw [(FeedMove.positiveLength hb).exec_eq hpst, if_neg hb]
    rfl

/-! ## Within a frame -/

/-- A byte stored at an index is read there, and the other indices read as before (R60). -/
theorem State.byteAt_of_write {s t : State} {sp : Space} {a : Nat} {b : Byte}
    (h : t.space sp = (s.space sp).write a b) :
    t.byteAt sp a = b ∧ ∀ i, i ≠ a → t.byteAt sp i = s.byteAt sp i :=
  ⟨by simp [State.byteAt, h], fun _ => State.byteAt_of_space_write h⟩

/-- Settles O17: one case per branch of AwaitPayload; both store the byte at `PCNT`. -/
theorem rxByteInAwaitPayload : Obligations.RxByteInAwaitPayload := by
  unfold Obligations.RxByteInAwaitPayload
  intro b s hpst hlt
  have hi : s.pcnt.toNat < Config.bufBytes := hlt.trans_le (plen_le_bufBytes s.plen)
  by_cases hlast : s.pcnt + 1 = s.plen
  · refine ⟨_, (FeedMove.lastPayloadByte hi hlast).exec_eq hpst, ?_, State.byteAt_of_write rfl⟩
    rw [if_pos hlast]
    rfl
  · refine ⟨_, (FeedMove.payloadByte hi hlast).exec_eq hpst, ?_, State.byteAt_of_write rfl⟩
    rw [if_neg hlast, ← hpst]
    rfl

/-- Settles O18: AwaitCrcHi has one branch. -/
theorem rxByteInAwaitCrcHi : Obligations.RxByteInAwaitCrcHi := by
  unfold Obligations.RxByteInAwaitCrcHi
  intro b s hpst
  exact FeedMove.crcHigh.exec_eq hpst

theorem State.prefixOf_getElem (s : State) (sp : Space) {n i : Nat}
    (h : i < (s.prefixOf sp n).length) : (s.prefixOf sp n)[i] = s.byteAt sp i := by
  simp [State.prefixOf]

/-- A payload written from index 0 is read byte for byte: the companion of `byteAt_writeFrom_above`. -/
theorem byteAt_writeFrom_inside (s : State) (sp : Space) (p : List Byte) {i : Nat} (h : i < p.length) :
    (s.setSpace sp ((s.space sp).writeFrom 0 p)).byteAt sp i = p[i] := by
  have hread := Memory.read?_writeFrom_inside (m := s.space sp) (i := 0) p h
  rw [Nat.zero_add] at hread
  simp [State.byteAt, hread]

/-- Settles O19: one case per branch of AwaitCrcLo. On a match the delivered payload is read back. -/
theorem rxByteInAwaitCrcLo : Obligations.RxByteInAwaitCrcLo := by
  unfold Obligations.RxByteInAwaitCrcLo
  intro b s hpst
  refine ⟨fun hcrc => ?complete, fun hcrc => (FeedMove.crcMismatch hcrc).exec_eq hpst⟩
  case complete =>
    have hcrc : crcPair s.pcrch b = crc16 (s.prefixOf .pbuf s.plen.toNat) := hcrc
    have hmove := FeedMove.crcMatch hcrc
    obtain ⟨-, hpayload⟩ := hmove.outcome_eq hpst (parserView_of_code (ph := .crcl) hpst)
    rw [feedAbstract, if_pos hcrc] at hpayload
    refine ⟨_, hmove.exec_eq hpst, ?_, fun i hi => ?_, fun i hi => ?_⟩
    · rw [State.recordOutcome, hpayload, State.markResult, lengthByte_of_toNat]
      rfl
    · exact (byteAt_writeFrom_inside s .rbuf (s.prefixOf .pbuf s.plen.toNat) (by simpa using hi)).trans
        (State.prefixOf_getElem ..)
    · exact byteAt_writeFrom_above s .rbuf (s.prefixOf .pbuf s.plen.toNat) (by simpa using hi)

/-! ## What every byte does -/

/-- A move with a terminal outcome leaves the parser cleared (R141). -/
theorem FeedMove.clears_of_terminal {b : Byte} {s u : State} {ph : Phase} {o : RxOutcome}
    (h : FeedMove b s ph u o) (ho : o = .resync ∨ o = .complete) :
    u.pst = 0 ∧ u.plen = 0 ∧ u.pcnt = 0 ∧ u.pcrch = 0 := by
  cases h with
  | crcMatch | crcMismatch => exact ⟨rfl, rfl, rfl, rfl⟩
  | _ => simp at ho

/-- Settles O20: `ParserClear` by definition, the terminal outcomes move by move. -/
theorem terminalOutcomeClearsParser : Obligations.TerminalOutcomeClearsParser := by
  unfold Obligations.TerminalOutcomeClearsParser
  refine ⟨fun _ => rfl, fun b s t h ho => ?_⟩
  obtain ⟨ph, u, o, -, hm, rfl⟩ := exec_rxByte_move h
  exact hm.clears_of_terminal ho

/-- From AwaitPayload and the two CRC states a move stays among them or ends the frame (R150). -/
theorem FeedMove.pst_of_inside {b : Byte} {s u : State} {ph : Phase} {o : RxOutcome}
    (h : FeedMove b s ph u o) (hpst : s.pst = ph.code) (hinside : 3 ≤ ph.code.toNat) :
    ∃ ph' ∈ [Phase.pay, .crch, .crcl, .h1], u.pst = ph'.code := by
  cases h with
  | lastPayloadByte => exact ⟨.crch, by decide, rfl⟩
  | payloadByte => exact ⟨.pay, by decide, hpst⟩
  | crcHigh => exact ⟨.crcl, by decide, rfl⟩
  | crcMatch | crcMismatch => exact ⟨.h1, by decide, rfl⟩
  | _ => exact absurd hinside (by decide)

/-- Settles O21: none of the states that a move from inside a frame reaches tests for a header. -/
theorem noHeaderScanInsideFrame : Obligations.NoHeaderScanInsideFrame := by
  unfold Obligations.NoHeaderScanInsideFrame
  intro b s t hinside h
  obtain ⟨ph, u, o, hph, hm, rfl⟩ := exec_rxByte_move h
  have hpst : s.pst = ph.code := phaseOf_eq_some hph
  have hcodes : ∀ ph' ∈ [Phase.pay, .crch, .crcl, .h1], ph'.code ≠ 1 ∧ ph'.code ≠ 2 := by decide
  obtain ⟨ph', hmem, hreached⟩ := hm.pst_of_inside hpst (hpst ▸ hinside)
  rw [State.recordOutcome_pst, hreached]
  exact hcodes ph' hmem

/-! ## Bounded storage -/

/-- A buffer in its canonical form lists each index once, so no more bytes than there are indices. -/
theorem Memory.length_le_bufBytes {m : Memory} (hwf : m.wf) (hrange : m.inRange) :
    m.length ≤ Config.bufBytes := by
  have hnodup : (m.map Prod.fst).Nodup := (List.pairwise_map.2 hwf).imp Nat.ne_of_lt
  have hsubset : m.map Prod.fst ⊆ List.range Config.bufBytes := fun i hi => by
    obtain ⟨c, hc, rfl⟩ := List.mem_map.1 hi
    exact List.mem_range.2 (hrange c hc)
  simpa using (List.subperm_of_subset hnodup hsubset).length_le

/-- In every parser state `PCNT` is at most `PLEN` (R25). -/
theorem Phase.Fits.pcnt_le_plen {s : State} {ph : Phase} (h : ph.Fits s) :
    s.pcnt.toNat ≤ s.plen.toNat := by
  cases ph with
  | h1 | h2 | len => obtain ⟨hlen, hcnt, -⟩ := h; rw [hlen, hcnt]
  | pay => obtain ⟨hlt, -⟩ := h; exact hlt.le
  | crch => obtain ⟨hcnt, -⟩ := h; rw [hcnt]
  | crcl => exact (congrArg BitVec.toNat h).le

/-- Settles O24: `RX_BYTE` answers by O23 and keeps the invariant, which bounds the storage. -/
theorem rxByteCompletesInBoundedStorage : Obligations.RxByteCompletesInBoundedStorage := by
  unfold Obligations.RxByteCompletesInBoundedStorage
  intro b s hs
  obtain ⟨ps, hview, -⟩ := hs.parserView_lengthsOk
  obtain ⟨t, ht, -⟩ := rxByteRefinesTransitionTable b s ps hs hview
  have hkept : Invariant t := exec_keeps_invariant hs ht
  obtain ⟨ph, -, hfit⟩ := accumulatorsOk_iff.1 hkept.accumulators
  exact ⟨t, ht, Memory.length_le_bufBytes (hkept.buffersCanonical .pbuf) (hkept.buffersInRange .pbuf),
    hfit.pcnt_le_plen⟩

end Sys2Proof.Machine
end

section
/-!
PROOFS, `NOP` and the reserved words (R180, R181): a `NOP` anywhere in a sequence is no operation at
all; a reserved word is refused, and the events of an edge never ask for one. From this O38, O39 and
O40.
-/

namespace Sys2Proof.Machine

/-! ## Reserved words -/

/-- Settles O40: reserved operations are refused under their own op. -/
theorem reservedInstructionsStop : Obligations.ReservedInstructionsStop := by
  unfold Obligations.ReservedInstructionsStop
  intro s
  refine ⟨?_, ?_, ?_, ?_, ?_, ?_, ?_, ?_, ?_, ?_⟩
  all_goals exact exec_of_not_wf rfl s

/-- A reserved operation is none of those that wait for `tx_ready` (R84). -/
theorem needsTxReady_of_not_wf {i : Instr} (h : i.wf = false) : needsTxReady i = false := by
  rw [← Bool.not_eq_true, needsTxReady_iff]
  rintro (⟨b, rfl⟩ | rfl)
  · cases h
  · cases h

/-- As an accepted operation a reserved one is refused as well (R181). -/
theorem transact_of_not_wf {i : Instr} (h : i.wf = false) (s : State) :
    transact i s = .refused (.reservedOperation (opcodeOf i)) := by
  rw [transact_of_not_needsTxReady s (needsTxReady_of_not_wf h), exec_of_not_wf h]

/-- The words of R181 decode to the reserved operations, whatever their data. -/
theorem not_wf_decode_opWord {op : BitVec 4} (d : Byte) (h : 6 ≤ op.toNat) :
    (decode (opWord op d)).wf = false := by
  rw [← Bool.not_eq_true, wf_iff_opcodeOf_lt, opcodeOf_decode, opField_opWord]
  omega

/-- The events of an edge ask for the operations of R82 only (R84). -/
theorem wf_of_mem_acceptedInstrs {p : InPorts} {q : List Byte} {i : Instr}
    (h : i ∈ acceptedInstrs p q) : i.wf = true := by
  simp only [acceptedInstrs, List.mem_append, List.mem_ite_nil_right, List.mem_singleton] at h
  rcases h with (((⟨-, rfl⟩ | ⟨-, rfl⟩) | ⟨-, rfl⟩) | ⟨-, rfl⟩) | ⟨-, rfl⟩ <;> rfl

theorem wf_decode_of_mem_acceptedWords {p : InPorts} {s : State} {w : OpWord}
    (h : w ∈ acceptedWords p s) : (decode w).wf = true := by
  have hmem := List.mem_map_of_mem (f := decode) h
  rw [map_decode_acceptedWords] at hmem
  split at hmem
  · rw [List.mem_singleton.1 hmem]
    rfl
  · exact wf_of_mem_acceptedInstrs hmem

/-- Settles O39: the word's operation is reserved, and the accepted words' operations are not. -/
theorem reservedWordsAreRefused : Obligations.ReservedWordsAreRefused := by
  unfold Obligations.ReservedWordsAreRefused
  refine ⟨fun op d s hop => ?asInstruction, fun op d s rest hop hin => ?asInput,
    fun p s w hw => ?accepted⟩
  case asInstruction =>
    rw [exec_of_not_wf (not_wf_decode_opWord d hop), opcodeOf_decode, opField_opWord]
  case asInput =>
    rw [step_of_word hin, transact_of_not_wf (not_wf_decode_opWord d hop), opcodeOf_decode,
      opField_opWord]
  case accepted =>
    rw [← opcodeOf_decode]
    exact wf_iff_opcodeOf_lt.1 (wf_decode_of_mem_acceptedWords hw)

/-! ## `NOP` -/

theorem exec_nop (s : State) : exec .nop s = .next s := rfl

/-- `NOP`s before a sequence leave the state it starts from (R180). -/
theorem runInstrs_nops_append (n : Nat) (js : List Instr) (s : State) :
    runInstrs (List.replicate n .nop ++ js) s = runInstrs js s := by
  induction n with
  | zero => rfl
  | succ n ih => rw [List.replicate_succ, List.cons_append, runInstrs_cons_of_next (exec_nop s), ih]

/-- Sequences with the same result have the same result behind a common beginning, also where that
beginning stops. -/
theorem runInstrs_append_congr {js js' : List Instr} (h : ∀ t, runInstrs js t = runInstrs js' t)
    (is : List Instr) (s : State) : runInstrs (is ++ js) s = runInstrs (is ++ js') s := by
  induction is generalizing s with
  | nil => exact h s
  | cons i is ih =>
    cases hi : exec i s with
    | next t => rw [List.cons_append, List.cons_append, runInstrs_cons_of_next hi,
        runInstrs_cons_of_next hi, ih]
    | fault f => simp only [List.cons_append, runInstrs, hi]
    | refused r => simp only [List.cons_append, runInstrs, hi]

/-- With no event offered an edge accepts no operation (R84). -/
theorem acceptedInstrs_of_no_event {p : InPorts} (q : List Byte) (hrx : p.rxValid = false)
    (hinit : p.crcInit = false) (hcrc : p.crcValid = false) (hpush : p.txPush = false)
    (hbuild : p.txBuild = false) : acceptedInstrs p q = [] := by
  simp [acceptedInstrs, hrx, hinit, hcrc, hpush, hbuild]

/-- Settles O38: the words by the decoder's laws; inserted `NOP`s begin what follows them. -/
theorem nopChangesNothing : Obligations.NopChangesNothing := by
  unfold Obligations.NopChangesNothing
  obtain ⟨hignored, -⟩ := ignoredDataSelectsSameOperation
  refine ⟨fun d => (hignored d).1, rfl, exec_nop,
    fun p s hrx hinit hcrc hpush hbuild => ?noEvent, fun n is js s => ?inserted⟩
  case noEvent =>
    rw [map_decode_acceptedWords, acceptedInstrs_of_no_event _ hrx hinit hcrc hpush hbuild,
      if_pos rfl]
  case inserted =>
    rw [List.append_assoc]
    exact runInstrs_append_congr (runInstrs_nops_append n js) is s

end Sys2Proof.Machine
end

section
/-!
PROOFS, the exceptions (R200, R203). From the invariant every operation of R82 goes on, and so do the
edges and the words made of them; a reserved word is the one input that stops a step. Without the
invariant an operation can still be refused, by `PST` 6 or 7, which no operation writes. From this O58
and O41.
-/

namespace Sys2Proof.Machine

/-! ## From the invariant operations go on -/

/-- A `TX_PUSH` goes on from every state: no index it stores at is missing (R122). -/
theorem exec_txPush_goes_on (b : Byte) (s : State) : ∃ t, exec (.txPush b) s = .next t := by
  cases hready : s.txReady with
  | true =>
    obtain ⟨t, ht⟩ := pushByte_never_faults b s
    exact ⟨t, by rw [exec_txPush_of_ready (State.txReady_iff.1 hready), ht, orFault_ok]⟩
  | false => exact ⟨s, if_neg (Bool.eq_false_iff.1 hready)⟩

/-- A `TX_BUILD` goes on while `TCNT` is in its range (R31, R123). -/
theorem exec_txBuild_goes_on {s : State} (hcount : s.tcnt.toNat ≤ 256) :
    ∃ t, exec .txBuild s = .next t := by
  cases hready : s.txReady with
  | true =>
    obtain ⟨t, ht⟩ := buildPushed_of_count hcount
    exact ⟨t, by rw [exec_txBuild_of_ready (State.txReady_iff.1 hready), ht, orFault_ok]⟩
  | false => exact ⟨s, if_neg (Bool.eq_false_iff.1 hready)⟩

/-- The operations of R82 go on from the invariant, which keeps `PST` and the buffer indices in range. -/
theorem exec_goes_on {i : Instr} {s : State} (hs : Invariant s) (hi : i.wf = true) :
    ∃ t, exec i s = .next t := by
  cases i with
  | nop => exact ⟨s, exec_nop s⟩
  | rxByte b =>
    obtain ⟨t, ht, -⟩ := rxByteCompletesInBoundedStorage b s hs
    exact ⟨t, ht⟩
  | crcInit => exact ⟨_, exec_crcInit s⟩
  | crcByte b => exact ⟨_, exec_crcByte b s⟩
  | txPush b => exact exec_txPush_goes_on b s
  | txBuild => exact exec_txBuild_goes_on hs.pushCount
  | _ => cases hi

theorem runInstrs_goes_on {is : List Instr} {s : State} (hs : Invariant s)
    (his : ∀ i ∈ is, i.wf = true) : ∃ t, runInstrs is s = .next t := by
  induction is generalizing s with
  | nil => exact ⟨s, rfl⟩
  | cons i is ih =>
    obtain ⟨hi, his⟩ := List.forall_mem_cons.1 his
    obtain ⟨t, ht⟩ := exec_goes_on hs hi
    rw [runInstrs_cons_of_next ht]
    exact ih (exec_keeps_invariant hs ht) his

/-! ## From the invariant edges and words go on -/

theorem Invariant.withInputs {s : State} (hs : Invariant s) (ins : List Input) :
    Invariant { s with inputs := ins } :=
  hs.of_queue_le (.refl s) (.refl s) rfl rfl le_rfl

theorem Invariant.tick {s : State} (hs : Invariant s) : Invariant s.tick :=
  hs.of_queue_le (.refl s) (.refl s) rfl rfl le_rfl

theorem Invariant.sendAll {s : State} (hs : Invariant s) : Invariant s.sendAll :=
  hs.of_queue_le (.refl s) (.refl s) rfl rfl (by simp)

theorem Invariant.handshake {s : State} (hs : Invariant s) (p : InPorts) :
    Invariant (handshake p s) := by
  rw [handshake_eq]
  refine hs.of_queue_le (.refl s) (.refl s) rfl rfl ?_
  show (if p.txOutReady then s.txq.drop 1 else s.txq).length ≤ s.txq.length
  split <;> simp

/-- An edge asks for no reserved operation (R84, R181), so that nothing stops it. -/
theorem clockEdge_goes_on {s : State} (hs : Invariant s) (p : InPorts) :
    ∃ t, clockEdge p s = .next t := by
  cases hrst : p.rst with
  | true => exact ⟨_, clockEdge_of_rst s hrst⟩
  | false =>
    rw [clockEdge_of_not_rst s hrst]
    exact runInstrs_goes_on (hs.tick.handshake p) fun _ => wf_of_mem_acceptedInstrs

theorem transact_goes_on {i : Instr} {s : State} (hs : Invariant s) (hi : i.wf = true) :
    ∃ t, transact i s = .next t := by
  cases hneeds : needsTxReady i with
  | true =>
    obtain ⟨t, ht⟩ := exec_goes_on hs.sendAll hi
    exact ⟨t.sendAll, by rw [transact_of_needsTxReady s hneeds, ht, drainAfter_of_next]⟩
  | false =>
    rw [transact_of_not_needsTxReady s hneeds]
    exact exec_goes_on hs hi

/-- Settles O58: one case per kind of pending input; a word goes on unless its operation is reserved. -/
theorem stepGoesOnUnlessReserved : Obligations.StepGoesOnUnlessReserved := by
  unfold Obligations.StepGoesOnUnlessReserved
  intro s hs
  match hin : s.inputs with
  | [] => exact .inl ⟨_, stepWithoutInputIsIdle s hin⟩
  | .edge p :: rest =>
    rw [step_of_edge hin]
    exact .inl (clockEdge_goes_on (hs.withInputs rest) p)
  | .word w :: rest =>
    rw [step_of_word hin]
    cases hwf : (decode w).wf with
    | true => exact .inl (transact_goes_on (hs.tick.withInputs rest) hwf)
    | false =>
      have hop : 6 ≤ (opField w).toNat := by
        rw [← Bool.not_eq_true, wf_iff_opcodeOf_lt, opcodeOf_decode] at hwf
        exact Nat.le_of_not_lt hwf
      exact .inr ⟨w, rest, rfl, hop, by rw [transact_of_not_wf hwf, opcodeOf_decode]⟩

/-! ## What is refused from any state -/

theorem orFault_ne_refused (r : Except Fault State) (q : Refusal) : orFault r ≠ .refused q := by
  cases r with
  | ok t => exact nofun
  | error f => exact nofun

/-- `RX_BYTE` is refused when `PST` names no parser state, and for no other reason (R203). -/
theorem exec_rxByte_refused_iff {b : Byte} {s : State} {r : Refusal} :
    exec (.rxByte b) s = .refused r ↔ (s.pst = 6 ∨ s.pst = 7) ∧ r = .illegalParserState := by
  rw [← phaseOf_eq_none]
  show execRxByte b s = .refused r ↔ _
  unfold execRxByte
  cases phaseOf s.pst with
  | none => simp [eq_comm]
  | some ph =>
    simp only [reduceCtorEq, false_and, iff_false]
    split <;> exact nofun

/-- Everything a refusal can mean (R181, R203). -/
theorem exec_refused {i : Instr} {s : State} {r : Refusal} (h : exec i s = .refused r) :
    (i.wf = false ∧ r = .reservedOperation (opcodeOf i)) ∨
    (r = .illegalParserState ∧ (s.pst = 6 ∨ s.pst = 7) ∧ ∃ b, i = .rxByte b) := by
  cases hwf : i.wf with
  | false =>
    rw [exec_of_not_wf hwf] at h
    cases h
    exact .inl ⟨rfl, rfl⟩
  | true =>
    cases i with
    | rxByte b =>
      obtain ⟨hpst, hr⟩ := exec_rxByte_refused_iff.1 h
      exact .inr ⟨hr, hpst, b, rfl⟩
    | txPush b =>
      obtain ⟨t, ht⟩ := exec_txPush_goes_on b s
      cases ht.symm.trans h
    | txBuild =>
      cases hready : s.txReady with
      | true =>
        rw [exec_txBuild_of_ready (State.txReady_iff.1 hready)] at h
        exact absurd h (orFault_ne_refused _ r)
      | false => cases (if_neg (Bool.eq_false_iff.1 hready)).symm.trans h
    | nop | crcInit | crcByte => cases h
    | _ => cases hwf

/-! ## No operation writes an illegal parser state -/

/-- A move that starts in a parser state ends in one (R142 to R147). -/
theorem FeedMove.exists_pst_eq_code {b : Byte} {s u : State} {ph : Phase} {o : RxOutcome}
    (h : FeedMove b s ph u o) (hpst : s.pst = ph.code) : ∃ ph' : Phase, u.pst = ph'.code := by
  cases h with
  | header1Found => exact ⟨.h2, rfl⟩
  | header1Missed => exact ⟨.h1, hpst⟩
  | header2Found => exact ⟨.len, rfl⟩
  | header2Missed => exact ⟨.h1, rfl⟩
  | zeroLength => exact ⟨.crch, rfl⟩
  | positiveLength => exact ⟨.pay, rfl⟩
  | lastPayloadByte => exact ⟨.crch, rfl⟩
  | payloadByte => exact ⟨.pay, hpst⟩
  | crcHigh => exact ⟨.crcl, rfl⟩
  | crcMatch | crcMismatch => exact ⟨.h1, rfl⟩

theorem Phase.code_legal (ph : Phase) : ph.code ≠ 6 ∧ ph.code ≠ 7 := by
  cases ph <;> decide

theorem exec_pst_legal {i : Instr} {s t : State} (h₆ : s.pst ≠ 6) (h₇ : s.pst ≠ 7)
    (h : exec i s = .next t) : t.pst ≠ 6 ∧ t.pst ≠ 7 := by
  by_cases hg : groupOf i = .parser
  · cases i with
    | rxByte b =>
      obtain ⟨ph, u, o, hph, hm, rfl⟩ := exec_rxByte_move h
      obtain ⟨ph', hreached⟩ := hm.exists_pst_eq_code (phaseOf_eq_some hph)
      rw [State.recordOutcome_pst, hreached]
      exact ph'.code_legal
    | _ => cases hg
  · obtain ⟨hrx, -, -⟩ := groupsWrittenByOwnFunction i s t h
    obtain ⟨⟨hpst, -⟩, -⟩ := hrx hg
    rw [hpst]
    exact ⟨h₆, h₇⟩

/-- Settles O41: the refusals by `exec_refused`; every operation leaves `PST` or moves it to a state. -/
theorem onlyTwoRefusals : Obligations.OnlyTwoRefusals := by
  unfold Obligations.OnlyTwoRefusals
  exact ⟨fun b s hpst => exec_rxByte_refused_iff.2 ⟨hpst, rfl⟩, fun i s r => exec_refused,
    fun i s t => exec_pst_legal⟩

end Sys2Proof.Machine
end

section
/-!
PROOFS, reset and the hazards (R230, R233, R236, R238): what a reset edge leaves and what the ports show
then, that a busy builder turns its operations away, and how long a result stays. From this O48, O54, O35
and O30.
-/

namespace Sys2Proof.Machine

/-! ## Reset -/

/-- Settles O48: the step is the reset edge behind the input it takes, which is `State.reset` but for the
model's record (log 10). -/
theorem resetEdgeRestoresResetValues : Obligations.ResetEdgeRestoresResetValues := by
  unfold Obligations.ResetEdgeRestoresResetValues
  intro s p rest hin hrst
  have hstep : step s = .next { s with inputs := rest }.tick.resetEdge := by
    rw [step_of_edge hin, clockEdge_of_rst _ hrst]
  exact ⟨_, hstep, rfl, rfl, rfl, rfl, rfl, rfl, rfl, rfl, rfl, rfl, rfl, rfl, rfl, rfl, rfl, rfl⟩

/-- Settles O54: each port but the two open ones is computed from registers that `State.reset` fixes. -/
theorem portsAfterReset : Obligations.PortsAfterReset := by
  unfold Obligations.PortsAfterReset
  exact fun a => rfl

/-! ## The builder while it is busy -/

section Busy

variable {s : State} (hq : s.txq ≠ [])
include hq

theorem exec_txPush_of_busy (b : Byte) : exec (.txPush b) s = .next s :=
  if_neg (mt State.txReady_iff.1 hq)

theorem exec_txBuild_of_busy : exec .txBuild s = .next s :=
  if_neg (mt State.txReady_iff.1 hq)

end Busy

/-- Settles O35: neither operation takes effect without `tx_ready`. -/
theorem txOperationsWaitWhileBusy : Obligations.TxOperationsWaitWhileBusy := by
  unfold Obligations.TxOperationsWaitWhileBusy
  exact fun b s hq => ⟨exec_txPush_of_busy hq b, exec_txBuild_of_busy hq⟩

/-! ## How long a result stays -/

/-- A stream in which some byte completes is at least as long as the shortest frame (R236): the bytes up to
that one end with a frame. -/
theorem five_le_length_of_complete_mem_feedStream {bs p : List Byte}
    (h : .complete p ∈ (feedStream .h1 bs).2) : 5 ≤ bs.length := by
  induction bs using List.reverseRecOn with
  | nil => cases h
  | append_singleton bs b ih =>
    rw [feedStream_append, List.mem_append] at h
    rcases h with hbefore | hlast
    · have hlen := ih hbefore
      rw [List.length_append]
      omega
    · obtain ⟨-, pre, hframe⟩ :=
        exists_frameOf_of_feedStream_complete (List.mem_singleton.1 hlast).symm
      rw [hframe, List.length_append, frameOf_length]
      omega

theorem FeedOutcome.exists_eq_complete_of_observed {o : FeedOutcome} {p : Option (List Byte)}
    (h : o.observed = .rx .complete p) : ∃ q, o = .complete q := by
  cases o with
  | complete q => exact ⟨q, rfl⟩
  | _ => cases h

/-- A sequence of operations keeps the result until a `COMPLETE` is observed (R148). -/
theorem runInstrs_keepsResultUntilComplete {is : List Instr} {s t : State}
    (h : runInstrs is s = .next t) : KeepsResultUntilComplete s t :=
  runInstrs_keeps (P := KeepsResultUntilComplete s)
    (fun _ _ _ hkept hexec => hkept.trans (exec_keepsResultUntilComplete hexec))
    (.of_unchanged rfl rfl rfl rfl) h

/-- Settles O30: four bytes hold no frame, so no `COMPLETE` is observed, and nothing else touches the
result. -/
theorem resultKeptForFourBytes : Obligations.ResultKeptForFourBytes := by
  unfold Obligations.ResultKeptForFourBytes
  intro s t bs hpst hlen hrun
  obtain ⟨t', hrun', hfeeds⟩ := runInstrs_rxBytes_feeds bs (parserView_eq_h1_iff.2 hpst) rfl
  obtain rfl : t = t' := Host.Outcome.next.inj (hrun.symm.trans hrun')
  obtain ⟨os, hobs, hkeep⟩ := runInstrs_keepsResultUntilComplete hrun
  have hos : os = (feedStream .h1 bs).2.map FeedOutcome.observed :=
    List.append_cancel_left (hobs.symm.trans hfeeds.obs)
  have hnone : ∀ p, Obs.rx .complete p ∉ os := by
    intro p hp
    rw [hos] at hp
    obtain ⟨o, hmem, hobserved⟩ := List.mem_map.1 hp
    obtain ⟨q, rfl⟩ := FeedOutcome.exists_eq_complete_of_observed hobserved
    have hfive := five_le_length_of_complete_mem_feedStream hmem
    omega
  obtain ⟨hrlen, hrbuf, hrvalid⟩ := hkeep hnone
  exact ⟨hrlen, hrvalid, State.byteAt_of_space_eq (sp := .rbuf) hrbuf⟩

end Sys2Proof.Machine
end
